-- ==== Sys2Proof/Word.lean ====
section
/-! DEFINITION. The word types of WuliCalc CORE (spec/00_scope.md R7, R8; spec/10_state.md R20, R31). -/

namespace Sys2Proof

/-- A 32-bit command word, also the size of STATUS (R7, R27, R70). -/
abbrev Word := BitVec 32

/-- A 64-bit magnitude, and the size of RES and DIN (R6, R28, R29). -/
abbrev Mag := BitVec 64

/-- One character of the text buffer (R12, R31). -/
abbrev Byte := BitVec 8

/-- The number of a value register V0..V7 (R20, R73). -/
abbrev VReg := Fin 8

/-- A 7-bit immediate field of the command word, and the size of a width and of TLEN (R21, R30, R74). -/
abbrev Imm := BitVec 7

end Sys2Proof
end

