-- ==== Sys2Proof/Syntax.lean ====
section
/-! DEFINITION. The commands of the command set WCC-1 as syntax: one constructor per row of spec/opcode_table.json
(spec/30_encoding.md R71, R72, R75). -/

namespace Sys2Proof

/-- The radix of a text: decimal "D", hexadecimal "X" or binary "B" (R71, R210). -/
inductive Radix where
  | dec
  | hex
  | bin
  deriving DecidableEq, Repr

/-- A command with its operands. The arguments stand in the order of the assembler syntax of R90:
the destination `rd`, the sources `rs1` and `rs2`, the radix `rx`, the immediates, the signed flag `s`. -/
inductive Instr where
  /-- `LDV vd, w, u|s` (R100) -/
  | ldv (rd : VReg) (a : Imm) (s : Bool)
  /-- `PARSE vd, d|x, w, u|s` (R222) -/
  | parse (rd : VReg) (rx : Radix) (a : Imm) (s : Bool)
  /-- `MOV vd, vs` (R101) -/
  | mov (rd rs1 : VReg)
  /-- `RDMAG vs` (R102) -/
  | rdmag (rs1 : VReg)
  /-- `RDMAGW vs, w` (R103) -/
  | rdmagw (rs1 : VReg) (a : Imm)
  /-- `RDWID vs` (R104) -/
  | rdwid (rs1 : VReg)
  /-- `RDSGN vs` (R105) -/
  | rdsgn (rs1 : VReg)
  /-- `TRUNC vd, vs, w` (R135) -/
  | trunc (rd rs1 : VReg) (a : Imm)
  /-- `SAT vd, vs, w` (R136) -/
  | sat (rd rs1 : VReg) (a : Imm)
  /-- `EXPAND vd, vs, w` (R137) -/
  | expand (rd rs1 : VReg) (a : Imm)
  /-- `SETW vd, vs, w` (R138) -/
  | setw (rd rs1 : VReg) (a : Imm)
  /-- `AND vd, vs1, vs2` (R162) -/
  | and (rd rs1 rs2 : VReg)
  /-- `OR vd, vs1, vs2` (R163) -/
  | or (rd rs1 rs2 : VReg)
  /-- `XOR vd, vs1, vs2` (R164) -/
  | xor (rd rs1 rs2 : VReg)
  /-- `NOT vd, vs` (R165) -/
  | not (rd rs1 : VReg)
  /-- `SHL vd, vs, n` (R166) -/
  | shl (rd rs1 : VReg) (a : Imm)
  /-- `SHR vd, vs, n` (R167) -/
  | shr (rd rs1 : VReg) (a : Imm)
  /-- `REVB vd, vs, p` (R168) -/
  | revb (rd rs1 : VReg) (a : Imm)
  /-- `GETB vs, i` (R169) -/
  | getb (rs1 : VReg) (a : Imm)
  /-- `ADD vd, vs1, vs2` (R170) -/
  | add (rd rs1 rs2 : VReg)
  /-- `SUB vd, vs1, vs2` (R171) -/
  | sub (rd rs1 rs2 : VReg)
  /-- `CMP vs1, vs2` (R174) -/
  | cmp (rs1 rs2 : VReg)
  /-- `EQ vs1, vs2` (R175) -/
  | eq (rs1 rs2 : VReg)
  /-- `NE vs1, vs2` (R176) -/
  | ne (rs1 rs2 : VReg)
  /-- `LT vs1, vs2` (R177) -/
  | lt (rs1 rs2 : VReg)
  /-- `LE vs1, vs2` (R178) -/
  | le (rs1 rs2 : VReg)
  /-- `GT vs1, vs2` (R179) -/
  | gt (rs1 rs2 : VReg)
  /-- `GE vs1, vs2` (R180) -/
  | ge (rs1 rs2 : VReg)
  /-- `FMT vs, d|x|b` (R212) -/
  | fmt (rs1 : VReg) (rx : Radix)
  /-- `FMTF vs, d|x|b, msb, lsb`: `a` is the msb and `b` the lsb (R216) -/
  | fmtf (rs1 : VReg) (rx : Radix) (a b : Imm)
  /-- `MASK w` (R132) -/
  | mask (a : Imm)
  /-- `MASKF lsb, w`: `b` is the lsb and `a` the width (R134) -/
  | maskf (b a : Imm)
  /-- `HEX2DEC` (R223) -/
  | hex2dec
  /-- `CLRST` (R110) -/
  | clrst
  deriving DecidableEq, Repr

/-- Why a word spells no command. Each of the three raises IllegalCommand (R79, R80). -/
inductive DecodeError where
  /-- the opcode is reserved (R76) -/
  | reservedOpcode
  /-- a 1 in a field the command's format marks "must be zero" (R77) -/
  | reservedField
  /-- a radix the command does not have (R78) -/
  | reservedRadix
  deriving DecidableEq, Repr

/-- The formats of R72. -/
inductive Format where
  | r3 | r2 | ri | c2 | s1 | si | ld | pr | fm | ff | im | im2 | n
  deriving DecidableEq, Repr

/-- One row of the opcode map of R75. -/
structure OpcodeRow where
  mnemonic : String
  op : BitVec 6
  format : Format
  value : Word
  mask : Word
  deriving DecidableEq, Repr

end Sys2Proof
end

