-- ==== Sys2Proof/WellFormed.lean ====
section
/-! DEFINITION. Which terms of the syntax are commands. The widths of the fields are in the types, so one check is
left: PARSE has no binary form (spec/30_encoding.md R78). -/

namespace Sys2Proof

/-- PARSE takes radix 10 or 16 only (R78); every other term spells a command. A width outside [1,64] is well formed:
it decodes and then raises OutOfRange (R74). -/
def Instr.wellFormed (i : Instr) : Bool :=
  match i with
  | .parse _ rx _ _ => rx != .bin
  | .ldv .. | .mov .. | .rdmag .. | .rdmagw .. | .rdwid .. | .rdsgn .. => true
  | .trunc .. | .sat .. | .expand .. | .setw .. => true
  | .and .. | .or .. | .xor .. | .not .. | .shl .. | .shr .. | .revb .. | .getb .. | .add .. | .sub .. => true
  | .cmp .. | .eq .. | .ne .. | .lt .. | .le .. | .gt .. | .ge .. => true
  | .fmt .. | .fmtf .. | .mask .. | .maskf .. | .hex2dec | .clrst => true

end Sys2Proof
end

