-- ==== Sys2Proof/Decode.lean ====
section
/-! DEFINITION. Decoding a command word, and encoding a command (spec/30_encoding.md R70 to R80). -/

namespace Sys2Proof

/-! ## Fields of the command word (R71) -/

def opOf (w : Word) : BitVec 6 := w.extractLsb' 26 6
def rdOf (w : Word) : VReg := (w.extractLsb' 23 3).toFin
def rs1Of (w : Word) : VReg := (w.extractLsb' 20 3).toFin
def rs2Of (w : Word) : VReg := (w.extractLsb' 17 3).toFin
def rxOf (w : Word) : BitVec 2 := w.extractLsb' 15 2
def sOf (w : Word) : Bool := w.getLsbD 14
def bOf (w : Word) : Imm := w.extractLsb' 7 7
def aOf (w : Word) : Imm := w.extractLsb' 0 7

/-- Bits hi down to lo of the word are all 0. -/
def zeros (w : Word) (hi lo : Nat) : Bool := w.extractLsb' lo (hi - lo + 1) == 0

/-- The radix an `rx` field selects; 0b11 is reserved (R71, R78, R210). -/
def radixOf (rx : BitVec 2) : Option Radix :=
  if rx = 0b00#2 then some .dec
  else if rx = 0b01#2 then some .hex
  else if rx = 0b10#2 then some .bin
  else none

/-- The `rx` field that selects a radix (R71). -/
def radixBits (rx : Radix) : BitVec 2 :=
  match rx with
  | .dec => 0b00#2
  | .hex => 0b01#2
  | .bin => 0b10#2

/-! ## Must-be-zero fields and the opcode map (R72, R75) -/

/-- The fields a format marks "must be zero" hold zeros (R72, R77). For PR, bit 16 is `rx[1]` (R78). -/
def reservedZero (f : Format) (w : Word) : Bool :=
  match f with
  | .r3 => zeros w 16 0
  | .r2 => zeros w 19 0
  | .ri => zeros w 19 7
  | .c2 => zeros w 25 23 && zeros w 16 0
  | .s1 => zeros w 25 23 && zeros w 19 0
  | .si => zeros w 25 23 && zeros w 19 7
  | .ld => zeros w 22 15 && zeros w 13 7
  | .pr => zeros w 22 17 && zeros w 13 7
  | .fm => zeros w 25 23 && zeros w 19 17 && zeros w 14 0
  | .ff => zeros w 25 23 && zeros w 19 17 && zeros w 14 14
  | .im => zeros w 25 7
  | .im2 => zeros w 25 14
  | .n => zeros w 25 0

/-- The opcode map of R75, with its match and mask columns as they are printed there. The decoder below does not
read it: it is the second reading that the decoder is held against. -/
def opcodeTable : List OpcodeRow :=
  [⟨"LDV", 0x01, .ld, 0x04000000, 0xFC7FBF80⟩,
   ⟨"PARSE", 0x02, .pr, 0x08000000, 0xFC7F3F80⟩,
   ⟨"MOV", 0x03, .r2, 0x0C000000, 0xFC0FFFFF⟩,
   ⟨"RDMAG", 0x04, .s1, 0x10000000, 0xFF8FFFFF⟩,
   ⟨"RDMAGW", 0x05, .si, 0x14000000, 0xFF8FFF80⟩,
   ⟨"RDWID", 0x06, .s1, 0x18000000, 0xFF8FFFFF⟩,
   ⟨"RDSGN", 0x07, .s1, 0x1C000000, 0xFF8FFFFF⟩,
   ⟨"TRUNC", 0x08, .ri, 0x20000000, 0xFC0FFF80⟩,
   ⟨"SAT", 0x09, .ri, 0x24000000, 0xFC0FFF80⟩,
   ⟨"EXPAND", 0x0A, .ri, 0x28000000, 0xFC0FFF80⟩,
   ⟨"SETW", 0x0B, .ri, 0x2C000000, 0xFC0FFF80⟩] ++
  [⟨"AND", 0x10, .r3, 0x40000000, 0xFC01FFFF⟩,
   ⟨"OR", 0x11, .r3, 0x44000000, 0xFC01FFFF⟩,
   ⟨"XOR", 0x12, .r3, 0x48000000, 0xFC01FFFF⟩,
   ⟨"NOT", 0x13, .r2, 0x4C000000, 0xFC0FFFFF⟩,
   ⟨"SHL", 0x14, .ri, 0x50000000, 0xFC0FFF80⟩,
   ⟨"SHR", 0x15, .ri, 0x54000000, 0xFC0FFF80⟩,
   ⟨"REVB", 0x16, .ri, 0x58000000, 0xFC0FFF80⟩,
   ⟨"GETB", 0x17, .si, 0x5C000000, 0xFF8FFF80⟩,
   ⟨"ADD", 0x18, .r3, 0x60000000, 0xFC01FFFF⟩,
   ⟨"SUB", 0x19, .r3, 0x64000000, 0xFC01FFFF⟩] ++
  [⟨"CMP", 0x20, .c2, 0x80000000, 0xFF81FFFF⟩,
   ⟨"EQ", 0x21, .c2, 0x84000000, 0xFF81FFFF⟩,
   ⟨"NE", 0x22, .c2, 0x88000000, 0xFF81FFFF⟩,
   ⟨"LT", 0x23, .c2, 0x8C000000, 0xFF81FFFF⟩,
   ⟨"LE", 0x24, .c2, 0x90000000, 0xFF81FFFF⟩,
   ⟨"GT", 0x25, .c2, 0x94000000, 0xFF81FFFF⟩,
   ⟨"GE", 0x26, .c2, 0x98000000, 0xFF81FFFF⟩] ++
  [⟨"FMT", 0x28, .fm, 0xA0000000, 0xFF8E7FFF⟩,
   ⟨"FMTF", 0x29, .ff, 0xA4000000, 0xFF8E4000⟩,
   ⟨"MASK", 0x30, .im, 0xC0000000, 0xFFFFFF80⟩,
   ⟨"MASKF", 0x31, .im2, 0xC4000000, 0xFFFFC000⟩,
   ⟨"HEX2DEC", 0x32, .n, 0xC8000000, 0xFFFFFFFF⟩,
   ⟨"CLRST", 0x3F, .n, 0xFC000000, 0xFFFFFFFF⟩]

/-- The `rx` constraint of a format (the column of that name in R75; R78). -/
def rxAllowed (f : Format) (w : Word) : Bool :=
  match f with
  | .pr => rxOf w == 0b00#2 || rxOf w == 0b01#2
  | .fm | .ff => rxOf w != 0b11#2
  | .r3 | .r2 | .ri | .c2 | .s1 | .si | .ld | .im | .im2 | .n => true

/-- The mnemonic, the opcode and the format of a command (R72, R75). -/
def Instr.head (i : Instr) : String × BitVec 6 × Format :=
  match i with
  | .ldv .. => ("LDV", 0x01, .ld)
  | .parse .. => ("PARSE", 0x02, .pr)
  | .mov .. => ("MOV", 0x03, .r2)
  | .rdmag .. => ("RDMAG", 0x04, .s1)
  | .rdmagw .. => ("RDMAGW", 0x05, .si)
  | .rdwid .. => ("RDWID", 0x06, .s1)
  | .rdsgn .. => ("RDSGN", 0x07, .s1)
  | .trunc .. => ("TRUNC", 0x08, .ri)
  | .sat .. => ("SAT", 0x09, .ri)
  | .expand .. => ("EXPAND", 0x0A, .ri)
  | .setw .. => ("SETW", 0x0B, .ri)
  | .and .. => ("AND", 0x10, .r3)
  | .or .. => ("OR", 0x11, .r3)
  | .xor .. => ("XOR", 0x12, .r3)
  | .not .. => ("NOT", 0x13, .r2)
  | .shl .. => ("SHL", 0x14, .ri)
  | .shr .. => ("SHR", 0x15, .ri)
  | .revb .. => ("REVB", 0x16, .ri)
  | .getb .. => ("GETB", 0x17, .si)
  | .add .. => ("ADD", 0x18, .r3)
  | .sub .. => ("SUB", 0x19, .r3)
  | .cmp .. => ("CMP", 0x20, .c2)
  | .eq .. => ("EQ", 0x21, .c2)
  | .ne .. => ("NE", 0x22, .c2)
  | .lt .. => ("LT", 0x23, .c2)
  | .le .. => ("LE", 0x24, .c2)
  | .gt .. => ("GT", 0x25, .c2)
  | .ge .. => ("GE", 0x26, .c2)
  | .fmt .. => ("FMT", 0x28, .fm)
  | .fmtf .. => ("FMTF", 0x29, .ff)
  | .mask .. => ("MASK", 0x30, .im)
  | .maskf .. => ("MASKF", 0x31, .im2)
  | .hex2dec => ("HEX2DEC", 0x32, .n)
  | .clrst => ("CLRST", 0x3F, .n)

/-- R75: a word x spells the command of a row when x & mask == match and the row's rx constraint holds. -/
def OpcodeRow.spells (row : OpcodeRow) (w : Word) : Bool :=
  w &&& row.mask == row.value && rxAllowed row.format w

/-! ## The decoder (R79, R80) -/

/-- The command `i` if the reserved fields of its format are zero (R77). -/
def need (f : Format) (w : Word) (i : Instr) : Except DecodeError Instr :=
  if reservedZero f w then .ok i else .error .reservedField

/-- The command `mk rx` if the reserved fields are zero and the radix is one of the format's (R77, R78). -/
def needRadix (f : Format) (w : Word) (mk : Radix → Instr) : Except DecodeError Instr :=
  if reservedZero f w then
    if rxAllowed f w then
      match radixOf (rxOf w) with
      | some rx => .ok (mk rx)
      | none => .error .reservedRadix
    else .error .reservedRadix
  else .error .reservedField

/-- The command a 32-bit word spells, or why it spells none. First the opcode, then the must-be-zero fields and the
radix (R80). -/
def decode (w : Word) : Except DecodeError Instr :=
  match (opOf w).toNat with
  | 0x01 => need .ld w (.ldv (rdOf w) (aOf w) (sOf w))
  | 0x02 => needRadix .pr w (fun rx => .parse (rdOf w) rx (aOf w) (sOf w))
  | 0x03 => need .r2 w (.mov (rdOf w) (rs1Of w))
  | 0x04 => need .s1 w (.rdmag (rs1Of w))
  | 0x05 => need .si w (.rdmagw (rs1Of w) (aOf w))
  | 0x06 => need .s1 w (.rdwid (rs1Of w))
  | 0x07 => need .s1 w (.rdsgn (rs1Of w))
  | 0x08 => need .ri w (.trunc (rdOf w) (rs1Of w) (aOf w))
  | 0x09 => need .ri w (.sat (rdOf w) (rs1Of w) (aOf w))
  | 0x0A => need .ri w (.expand (rdOf w) (rs1Of w) (aOf w))
  | 0x0B => need .ri w (.setw (rdOf w) (rs1Of w) (aOf w))
  | 0x10 => need .r3 w (.and (rdOf w) (rs1Of w) (rs2Of w))
  | 0x11 => need .r3 w (.or (rdOf w) (rs1Of w) (rs2Of w))
  | 0x12 => need .r3 w (.xor (rdOf w) (rs1Of w) (rs2Of w))
  | 0x13 => need .r2 w (.not (rdOf w) (rs1Of w))
  | 0x14 => need .ri w (.shl (rdOf w) (rs1Of w) (aOf w))
  | 0x15 => need .ri w (.shr (rdOf w) (rs1Of w) (aOf w))
  | 0x16 => need .ri w (.revb (rdOf w) (rs1Of w) (aOf w))
  | 0x17 => need .si w (.getb (rs1Of w) (aOf w))
  | 0x18 => need .r3 w (.add (rdOf w) (rs1Of w) (rs2Of w))
  | 0x19 => need .r3 w (.sub (rdOf w) (rs1Of w) (rs2Of w))
  | 0x20 => need .c2 w (.cmp (rs1Of w) (rs2Of w))
  | 0x21 => need .c2 w (.eq (rs1Of w) (rs2Of w))
  | 0x22 => need .c2 w (.ne (rs1Of w) (rs2Of w))
  | 0x23 => need .c2 w (.lt (rs1Of w) (rs2Of w))
  | 0x24 => need .c2 w (.le (rs1Of w) (rs2Of w))
  | 0x25 => need .c2 w (.gt (rs1Of w) (rs2Of w))
  | 0x26 => need .c2 w (.ge (rs1Of w) (rs2Of w))
  | 0x28 => needRadix .fm w (fun rx => .fmt (rs1Of w) rx)
  | 0x29 => needRadix .ff w (fun rx => .fmtf (rs1Of w) rx (aOf w) (bOf w))
  | 0x30 => need .im w (.mask (aOf w))
  | 0x31 => need .im2 w (.maskf (bOf w) (aOf w))
  | 0x32 => need .n w .hex2dec
  | 0x3F => need .n w .clrst
  | _ => .error .reservedOpcode

/-- The host's question: the command the decoder reads from a word of the opcode table. A command is one 32-bit word
(R70); the bits above `nbits` are 0. -/
def decodeTableWord (nbits w : Nat) : Option Instr :=
  match decode (BitVec.ofNat 32 (w % 2 ^ nbits)) with
  | .ok i => some i
  | .error _ => none

/-! ## The encoder (R71, R72, R75) -/

/-- A command word from its fields, most significant first (R71). -/
def word (op : BitVec 6) (rd : VReg := 0) (rs1 : VReg := 0) (rs2 : VReg := 0) (rx : BitVec 2 := 0#2) (s : Bool := false)
    (b : Imm := 0#7) (a : Imm := 0#7) : Word :=
  op ++ (BitVec.ofFin rd : BitVec 3) ++ (BitVec.ofFin rs1 : BitVec 3) ++ (BitVec.ofFin rs2 : BitVec 3) ++ rx ++
    BitVec.ofBool s ++ b ++ a

/-- The word of a command: its opcode, its fields, and zeros in every reserved field (R72, R75). -/
def encode (i : Instr) : Word :=
  match i with
  | .ldv rd a s => word 0x01 (rd := rd) (s := s) (a := a)
  | .parse rd rx a s => word 0x02 (rd := rd) (rx := radixBits rx) (s := s) (a := a)
  | .mov rd rs1 => word 0x03 (rd := rd) (rs1 := rs1)
  | .rdmag rs1 => word 0x04 (rs1 := rs1)
  | .rdmagw rs1 a => word 0x05 (rs1 := rs1) (a := a)
  | .rdwid rs1 => word 0x06 (rs1 := rs1)
  | .rdsgn rs1 => word 0x07 (rs1 := rs1)
  | .trunc rd rs1 a => word 0x08 (rd := rd) (rs1 := rs1) (a := a)
  | .sat rd rs1 a => word 0x09 (rd := rd) (rs1 := rs1) (a := a)
  | .expand rd rs1 a => word 0x0A (rd := rd) (rs1 := rs1) (a := a)
  | .setw rd rs1 a => word 0x0B (rd := rd) (rs1 := rs1) (a := a)
  | .and rd rs1 rs2 => word 0x10 (rd := rd) (rs1 := rs1) (rs2 := rs2)
  | .or rd rs1 rs2 => word 0x11 (rd := rd) (rs1 := rs1) (rs2 := rs2)
  | .xor rd rs1 rs2 => word 0x12 (rd := rd) (rs1 := rs1) (rs2 := rs2)
  | .not rd rs1 => word 0x13 (rd := rd) (rs1 := rs1)
  | .shl rd rs1 a => word 0x14 (rd := rd) (rs1 := rs1) (a := a)
  | .shr rd rs1 a => word 0x15 (rd := rd) (rs1 := rs1) (a := a)
  | .revb rd rs1 a => word 0x16 (rd := rd) (rs1 := rs1) (a := a)
  | .getb rs1 a => word 0x17 (rs1 := rs1) (a := a)
  | .add rd rs1 rs2 => word 0x18 (rd := rd) (rs1 := rs1) (rs2 := rs2)
  | .sub rd rs1 rs2 => word 0x19 (rd := rd) (rs1 := rs1) (rs2 := rs2)
  | .cmp rs1 rs2 => word 0x20 (rs1 := rs1) (rs2 := rs2)
  | .eq rs1 rs2 => word 0x21 (rs1 := rs1) (rs2 := rs2)
  | .ne rs1 rs2 => word 0x22 (rs1 := rs1) (rs2 := rs2)
  | .lt rs1 rs2 => word 0x23 (rs1 := rs1) (rs2 := rs2)
  | .le rs1 rs2 => word 0x24 (rs1 := rs1) (rs2 := rs2)
  | .gt rs1 rs2 => word 0x25 (rs1 := rs1) (rs2 := rs2)
  | .ge rs1 rs2 => word 0x26 (rs1 := rs1) (rs2 := rs2)
  | .fmt rs1 rx => word 0x28 (rs1 := rs1) (rx := radixBits rx)
  | .fmtf rs1 rx a b => word 0x29 (rs1 := rs1) (rx := radixBits rx) (b := b) (a := a)
  | .mask a => word 0x30 (a := a)
  | .maskf b a => word 0x31 (b := b) (a := a)
  | .hex2dec => word 0x32
  | .clrst => word 0x3F

end Sys2Proof
end

