-- ==== Sys2Proof/Config.lean ====
section
/-! DEFINITION. What the machine leaves free. Each constant is opaque and has no body: it stands for a value of state
that spec/10_state.md R35 marks unspecified after reset, read before anything has written it. The model follows
RESET_UNSPEC_POLICY = any of spec/70_reset_and_hazards.md R352: an arbitrary value, drawn afresh at each read
(notes/assumptions/2.md). The argument is the number of the draw (`Machine.State.draw`), so two reads never share one. -/

namespace Sys2Proof.Config

/-- The magnitude read from a value register that nothing has written (R35, R352). -/
opaque freeMag : Nat → BitVec 64

/-- The width, less one, read from a value register that nothing has written. R22 and R104 keep every width in [1,64]
(notes/assumptions/3.md). -/
opaque freeWidth : Nat → BitVec 6

/-- The signed flag read from a value register that nothing has written, as one bit (R35, R352). -/
opaque freeSign : Nat → BitVec 1

/-- The number read from DIN or from RES when nothing has written it (R35, R352). -/
opaque freeWord : Nat → BitVec 64

/-- The byte read from a place of TXT that nothing has written (R35, R352). -/
opaque freeByte : Nat → BitVec 8

end Sys2Proof.Config
end

