-- ==== Sys2Proof/Machine/State.lean ====
section
/-! DEFINITION. The state of the machine as plain data, the reasons a step can stop, and the state after reset
(spec/10_state.md R20 to R35, spec/70_reset_and_hazards.md R350 to R352). -/

namespace Sys2Proof.Machine

/-- The contents of a value register: magnitude, width and signed flag (R20, R21). -/
structure Value where
  mag : Mag
  w : Imm
  s : Bool
  deriving DecidableEq, Repr

/-- The text buffer: the bytes of TXT that something has written, as (index, byte) pairs (R31). -/
abbrev Memory := List Host.Cell

/-- The canonical form of a text buffer: indexes strictly rising, all in 0..63. An unlisted index is a byte that nothing
has written since reset; what it reads as is no fixed value, so every written byte is listed
(notes/assumptions/5.md). -/
abbrev Memory.wf (m : Memory) : Prop :=
  m.Pairwise (fun x y => x.1 < y.1) ∧ ∀ c ∈ m, c.1 < 64

/-- Which pieces of state marked unspecified at reset have been written since (the bookkeeping R34 allows a model).
The bytes of TXT need no mark: an unwritten one is not listed. -/
structure Marks where
  v : Vector Bool 8
  res : Bool
  din : Bool
  deriving DecidableEq, Repr

/-- The error kinds of R300. Code 0, OK, is no error. -/
inductive ErrorKind where
  | outOfRange
  | unsupported
  | invalidArgument
  | illegalCommand
  deriving DecidableEq, Repr

/-- A register of the host window (R51). -/
inductive PortReg where
  | cmd
  | status
  | din
  | res
  | tlen
  | txt (k : Nat)
  deriving DecidableEq, Repr

/-- What the outside world does to the block, one item at a time in the order the host issues them (R58): a host
access of a number of bits at an offset from the window's base (R51), or a change of the reset input (R350).
Of the data of a write only the low `bits` bits mean anything. -/
inductive HostEvent where
  | read (offset bits : Nat)
  | write (offset bits : Nat) (data : BitVec 64)
  | resetInput (asserted : Bool)
  deriving DecidableEq, Repr

/-- The state. `v` to `status` are the block's own (R20 to R31; CMD holds no state, R32). `resetAsserted` is the level of
the reset input (R350). The last four are the model's: the written marks, the host's coming events and the data its
reads got (notes/assumptions/1.md, 8.md), and the number of events served, which numbers the free draws
(notes/assumptions/2.md). -/
structure State where
  v : Vector Value 8
  res : Mag
  din : Mag
  tlen : Imm
  txt : Memory
  status : Word
  resetAsserted : Bool
  marks : Marks
  inputs : List HostEvent
  replies : List (BitVec 64)
  tick : Nat
  deriving DecidableEq, Repr

/-- Why the machine stops: a host access the register map does not define (R51, R54, R315). -/
inductive Fault where
  /-- Raised by a host access at an offset where the map has no register: reserved, misaligned or outside the window
  (R51, R54). Safe: the spec gives the access no meaning. -/
  | undefinedOffset
  /-- Raised by a host access of a size other than the map's for that register (R51, R53). Safe, likewise. -/
  | wrongAccessSize
  deriving DecidableEq, Repr

/-- Why the machine refuses. -/
inductive Refusal where
  /-- Raised by an arm of `exec` whose command has no meaning yet. Safe. No arm of this model raises it. -/
  | notModelled (mnemonic : String)
  /-- Raised by a host access while the reset input is asserted, which has no meaning (R350). Safe. -/
  | accessDuringReset
  deriving DecidableEq, Repr

/-- What every value register holds before it is written: magnitude 0, width 64, unsigned. DESIGN CHOICE: R35 gives
none, and no read returns it (notes/assumptions/4.md). -/
def Value.unwritten : Value := ⟨0, 64, false⟩

/-- The state right after reset (R35, R350): TLEN and STATUS are 0, everything else is unwritten, the host has done
nothing yet. The contents of V0..V7, RES and DIN are DESIGN CHOICE (notes/assumptions/4.md). -/
def State.reset : State where
  v := Vector.replicate 8 Value.unwritten
  res := 0
  din := 0
  tlen := 0
  txt := []
  status := 0
  resetAsserted := false
  marks := ⟨Vector.replicate 8 false, false, false⟩
  inputs := []
  replies := []
  tick := 0

end Sys2Proof.Machine
end

