-- ==== Sys2Proof/Machine/Flags.lean ====
section
/-! DEFINITION. The status register and the comparisons. The block has no arithmetic flags (spec/10_state.md R26); what
it reports of a command is STATUS (R27, spec/60_exceptions.md R300), and a comparison's result goes to RES
(spec/42_bitwise_arith.md R173). -/

namespace Sys2Proof.Machine

/-- The number of an error kind in STATUS.CODE (R300). -/
def ErrorKind.code (e : ErrorKind) : BitVec 3 :=
  match e with
  | .outOfRange => 1
  | .unsupported => 2
  | .invalidArgument => 3
  | .illegalCommand => 4

/-- STATUS with the given STICKY and CODE; bits [31:4] are 0 (R27). -/
def statusWord (sticky : Bool) (code : BitVec 3) : Word := 0#28 ++ BitVec.ofBool sticky ++ code

/-- STATUS.CODE, bits [2:0] (R27). -/
def State.code (s : State) : BitVec 3 := s.status.extractLsb' 0 3

/-- STATUS.STICKY, bit [3] (R27). -/
def State.sticky (s : State) : Bool := s.status.getLsbD 3

/-- The three-way comparison of two magnitudes as unsigned numbers: -1, 0 or +1 (R173). -/
def cmpMag (x y : Mag) : Int :=
  if x.toNat < y.toNat then -1 else if x = y then 0 else 1

/-- The result of a comparison as the host reads it in RES: 1 or 0 (R175 to R180). -/
def truth (b : Bool) : Mag := if b then 1 else 0

end Sys2Proof.Machine
end

