-- ==== Sys2Proof/Machine/Ops.lean ====
section
/-! DEFINITION. The named operations over memory and registers, and the two ways a command ends: completion, and
raising an error (spec/60_exceptions.md R302, R303). There is no return from an error (R306). -/

namespace Sys2Proof.Machine

/-! ## The text buffer -/

/-- The byte written at index a, or none if nothing has written it. -/
def Memory.read (m : Memory) (a : Nat) : Option Byte :=
  match m with
  | [] => none
  | (k, b) :: rest => if k = a then some b else Memory.read rest a

/-- Write byte b at index a, keeping the indexes rising. -/
def Memory.write (m : Memory) (a : Nat) (b : Byte) : Memory :=
  match m with
  | [] => [(a, b)]
  | (k, c) :: rest =>
    if a < k then (a, b) :: (k, c) :: rest
    else if k = a then (a, b) :: rest
    else (k, c) :: Memory.write rest a b

/-- The whole buffer holding a string: character k at index k, and 0x00 past the string's end (R211). -/
def Memory.image (str : List Byte) : Memory := (List.range 64).map (fun k => (k, str.getD k 0x00))

/-! ## Reads of state that reset leaves unspecified (R35, R352) -/

/-- The number of the free draw for one read. Within one step a read has a slot of its own (0: the left operand, 1: the
right operand, 2: DIN, 3: RES, 64 + k: TXT[k]), and every step has draws of its own. -/
def State.draw (s : State) (slot : Nat) : Nat := s.tick * 128 + slot

/-- What an unwritten value register reads as: a free value, its width in [1,64] (R22, R352). -/
def freeValue (n : Nat) : Value :=
  ⟨Config.freeMag n, (Config.freeWidth n).setWidth 7 + 1, Config.freeSign n == 1⟩

/-- What value register i holds if it has been written since reset, else none. -/
def State.contents (s : State) (i : VReg) : Option Value :=
  if s.marks.v[i.val] then some s.v[i.val] else none

/-- A command's read of value register i, in the given slot. -/
def State.readV (s : State) (slot : Nat) (i : VReg) : Value :=
  match s.contents i with
  | some x => x
  | none => freeValue (s.draw slot)

/-- What RES holds if it has been written since reset, else none. -/
def State.resContents (s : State) : Option Mag := if s.marks.res then some s.res else none

/-- What DIN holds if it has been written since reset, else none. -/
def State.dinContents (s : State) : Option Mag := if s.marks.din then some s.din else none

/-- A read of RES (R28). -/
def State.readRes (s : State) : Mag :=
  match s.resContents with
  | some x => x
  | none => Config.freeWord (s.draw 3)

/-- A read of DIN (R29). -/
def State.readDin (s : State) : Mag :=
  match s.dinContents with
  | some x => x
  | none => Config.freeWord (s.draw 2)

/-- What byte k of the text buffer reads as while nothing has written it. -/
def State.unlistedByte (s : State) (k : Nat) : Byte := Config.freeByte (s.draw (64 + k))

/-- A read of TXT[k] (R31). -/
def State.readTxt (s : State) (k : Nat) : Byte :=
  match s.txt.read k with
  | some b => b
  | none => s.unlistedByte k

/-! ## Writes -/

/-- V[i] <- x, all three fields at once (R9). -/
def State.setV (s : State) (i : VReg) (x : Value) : State :=
  { s with v := s.v.set i.val x, marks := { s.marks with v := s.marks.v.set i.val true } }

/-- RES <- x (R28). -/
def State.setRes (s : State) (x : Mag) : State :=
  { s with res := x, marks := { s.marks with res := true } }

/-- DIN <- x (R29). -/
def State.setDin (s : State) (x : Mag) : State :=
  { s with din := x, marks := { s.marks with din := true } }

/-- TLEN <- n (R30). -/
def State.setTlen (s : State) (n : Imm) : State := { s with tlen := n }

/-- TXT[k] <- b (R31). -/
def State.setTxt (s : State) (k : Nat) (b : Byte) : State := { s with txt := s.txt.write k b }

/-- Deliver a string: all 64 bytes of TXT, and TLEN (R211). -/
def State.writeText (s : State) (str : List Byte) : State :=
  { s with txt := Memory.image str, tlen := BitVec.ofNat 7 str.length }

/-- STATUS <- x. -/
def State.setStatus (s : State) (x : Word) : State := { s with status := x }

/-! ## How a command ends (R302, R303) -/

/-- Completion: CODE <- 0, STICKY as it was. -/
def State.complete (s : State) : State := s.setStatus (statusWord s.sticky 0)

/-- Raising error E: CODE <- code(E), STICKY <- 1, and nothing else. -/
def State.raise (s : State) (e : ErrorKind) : State := s.setStatus (statusWord true e.code)

/-- End a command that started in s: with the state it made, or with an error that leaves s as it was but for STATUS.
An error is an ordinary outcome (R315), so a command always answers a next state. -/
def finish (s : State) (r : Except ErrorKind State) : Host.Outcome State Fault Refusal :=
  .next (match r with
    | .ok t => t.complete
    | .error e => s.raise e)

/-- End a command whose result goes to V[rd]. -/
def finishV (s : State) (rd : VReg) (r : Except ErrorKind Value) : Host.Outcome State Fault Refusal :=
  finish s (match r with
    | .ok x => .ok (s.setV rd x)
    | .error e => .error e)

/-- End a command whose result goes to RES. -/
def finishRes (s : State) (r : Except ErrorKind Mag) : Host.Outcome State Fault Refusal :=
  finish s (match r with
    | .ok x => .ok (s.setRes x)
    | .error e => .error e)

/-- End a command whose result is a text. -/
def finishText (s : State) (r : Except ErrorKind (List Byte)) : Host.Outcome State Fault Refusal :=
  finish s (match r with
    | .ok str => .ok (s.writeText str)
    | .error e => .error e)

end Sys2Proof.Machine
end

