-- ==== Sys2Proof/Machine/Operands.lean ====
section
/-! DEFINITION. How a command reads its operands, the width check, the mask functions and the widening of a right operand
(spec/41_mask_width.md R130, R131, R133; spec/42_bitwise_arith.md R160, R161). -/

namespace Sys2Proof.Machine

/-- The left (or only) operand V[rs1], read before anything is written (R361). -/
def State.left (s : State) (rs1 : VReg) : Value := s.readV 0 rs1

/-- The right operand V[rs2], read before anything is written (R361). A register that is both operands and unwritten
is read twice, with two draws (R352). -/
def State.right (s : State) (rs2 : VReg) : Value := s.readV 1 rs2

/-- The text TXT[0 .. TLEN-1] (R220, R221). -/
def State.text (s : State) : List Byte := (List.range s.tlen.toNat).map s.readTxt

/-- clamp(x, lo, hi) of R9. -/
def clamp (x lo hi : Nat) : Nat := min (max x lo) hi

/-- mask(w): the low-order mask, w clamped to [1,64] (R130). -/
def mask (w : Nat) : Mag :=
  let w1 := clamp w 1 64
  if w1 = 64 then 0xFFFFFFFFFFFFFFFF#64 else (1#64 <<< w1) - 1#64

/-- fieldmask(lsb, w): the contiguous field mask, never past bit 63 (R131). -/
def fieldmask (lsb w : Nat) : Mag :=
  let l := min lsb 63
  let w1 := clamp w 1 64
  let w2 := if l + w1 > 64 then 64 - l else w1
  if l = 0 then mask w2 else mask w2 <<< l

/-- The mask of a value's own width. -/
def Value.mask (x : Value) : Mag := Sys2Proof.Machine.mask x.w.toNat

/-- val(V[i]): the magnitude seen through its width (R11). -/
def Value.val (x : Value) : Mag := x.mag &&& x.mask

/-- The value with a new magnitude, masked to its width; width and signed flag kept (R160). -/
def Value.withMag (x : Value) (m : Mag) : Value := ⟨m &&& x.mask, x.w, x.s⟩

/-- A width argument outside [1,64] (R100, R133, R222). -/
def badWidth (a : Imm) : Bool := a.toNat < 1 || a.toNat > 64

/-- The magnitude of the right operand of AND, OR and XOR, widened on a local copy when it is narrower than the left
(R161). -/
def widen (l r : Value) : Except ErrorKind Mag :=
  if r.w.toNat < l.w.toNat then
    if r.s then .error .unsupported else .ok (r.mag &&& r.mask)
  else .ok r.mag

end Sys2Proof.Machine
end

