-- ==== Sys2Proof/Machine/Arith.lean ====
section
/-! DEFINITION. Arithmetic (spec/42_bitwise_arith.md R170 to R172): ADD, SUB. Raw magnitudes, no widening, no flags. -/

namespace Sys2Proof.Machine

/-- ADD (R170). -/
def execAdd (rd rs1 rs2 : VReg) (s : State) : Host.Outcome State Fault Refusal :=
  finishV s rd (.ok ((s.left rs1).withMag ((s.left rs1).mag + (s.right rs2).mag)))

/-- SUB (R171). -/
def execSub (rd rs1 rs2 : VReg) (s : State) : Host.Outcome State Fault Refusal :=
  finishV s rd (.ok ((s.left rs1).withMag ((s.left rs1).mag - (s.right rs2).mag)))

end Sys2Proof.Machine
end

