-- ==== Sys2Proof/Machine/Bitwise.lean ====
section
/-! DEFINITION. Bitwise operations (spec/42_bitwise_arith.md R160 to R169): AND, OR, XOR, NOT, SHL, SHR, REVB, GETB. -/

namespace Sys2Proof.Machine

/-- A bitwise combination of two operands: the right one widened (R161), the result at the left one's width and signed
flag (R160). -/
def combined (op : Mag → Mag → Mag) (l r : Value) : Except ErrorKind Value :=
  match widen l r with
  | .ok rm => .ok (l.withMag (op l.mag rm))
  | .error e => .error e

/-- A left shift of a 64-bit value by 0..127; 64 and above give 0 (R166). -/
def shiftLeft (m : Mag) (n : Nat) : Mag := if n ≥ 64 then 0 else m <<< n

/-- A logical right shift of a 64-bit value by 0..127; 64 and above give 0 (R167). -/
def shiftRight (m : Mag) (n : Nat) : Mag := if n ≥ 64 then 0 else m >>> n

/-- AND (R162). -/
def execAnd (rd rs1 rs2 : VReg) (s : State) : Host.Outcome State Fault Refusal :=
  finishV s rd (combined (fun x y => x &&& y) (s.left rs1) (s.right rs2))

/-- OR (R163). -/
def execOr (rd rs1 rs2 : VReg) (s : State) : Host.Outcome State Fault Refusal :=
  finishV s rd (combined (fun x y => x ||| y) (s.left rs1) (s.right rs2))

/-- XOR (R164). -/
def execXor (rd rs1 rs2 : VReg) (s : State) : Host.Outcome State Fault Refusal :=
  finishV s rd (combined (fun x y => x ^^^ y) (s.left rs1) (s.right rs2))

/-- NOT (R165): an XOR against the mask of the width. -/
def execNot (rd rs1 : VReg) (s : State) : Host.Outcome State Fault Refusal :=
  finishV s rd (.ok ((s.left rs1).withMag ((s.left rs1).mag ^^^ (s.left rs1).mask)))

/-- SHL (R166). -/
def execShl (rd rs1 : VReg) (a : Imm) (s : State) : Host.Outcome State Fault Refusal :=
  finishV s rd (.ok ((s.left rs1).withMag (shiftLeft (s.left rs1).mag a.toNat)))

/-- SHR (R167): logical, on the raw magnitude. -/
def execShr (rd rs1 : VReg) (a : Imm) (s : State) : Host.Outcome State Fault Refusal :=
  finishV s rd (.ok ((s.left rs1).withMag (shiftRight (s.left rs1).mag a.toNat)))

/-- REVB (R168): a position at or beyond the width leaves the value as it was, bits above the width included. -/
def execRevb (rd rs1 : VReg) (a : Imm) (s : State) : Host.Outcome State Fault Refusal :=
  finishV s rd
    (.ok (if a.toNat ≥ (s.left rs1).w.toNat then s.left rs1
      else (s.left rs1).withMag ((s.left rs1).mag ^^^ shiftLeft 1 a.toNat)))

/-- GETB (R169): the character at position a of the binary text, so bit w-1-a. -/
def execGetb (rs1 : VReg) (a : Imm) (s : State) : Host.Outcome State Fault Refusal :=
  finishRes s
    (if a.toNat ≥ (s.left rs1).w.toNat then .error .outOfRange
     else .ok (0x30#64 + truth ((s.left rs1).val.getLsbD ((s.left rs1).w.toNat - 1 - a.toNat))))

end Sys2Proof.Machine
end

