-- ==== Sys2Proof/Machine/Compare.lean ====
section
/-! DEFINITION. Comparison (spec/42_bitwise_arith.md R173 to R180): CMP, EQ, NE, LT, LE, GT, GE. Raw magnitudes as unsigned
numbers; width and signedness are not compared. -/

namespace Sys2Proof.Machine

/-- cmp(V[rs1], V[rs2]) of R173. -/
def State.compare (s : State) (rs1 rs2 : VReg) : Int := cmpMag (s.left rs1).mag (s.right rs2).mag

/-- CMP (R174): -1, 0 or +1 as a 64-bit two's-complement pattern. -/
def execCmp (rs1 rs2 : VReg) (s : State) : Host.Outcome State Fault Refusal :=
  finishRes s (.ok (BitVec.ofInt 64 (s.compare rs1 rs2)))

/-- EQ (R175). -/
def execEq (rs1 rs2 : VReg) (s : State) : Host.Outcome State Fault Refusal :=
  finishRes s (.ok (truth (s.compare rs1 rs2 == 0)))

/-- NE (R176). -/
def execNe (rs1 rs2 : VReg) (s : State) : Host.Outcome State Fault Refusal :=
  finishRes s (.ok (truth (s.compare rs1 rs2 != 0)))

/-- LT (R177). -/
def execLt (rs1 rs2 : VReg) (s : State) : Host.Outcome State Fault Refusal :=
  finishRes s (.ok (truth (decide (s.compare rs1 rs2 < 0))))

/-- LE (R178). -/
def execLe (rs1 rs2 : VReg) (s : State) : Host.Outcome State Fault Refusal :=
  finishRes s (.ok (truth (decide (s.compare rs1 rs2 ≤ 0))))

/-- GT (R179). -/
def execGt (rs1 rs2 : VReg) (s : State) : Host.Outcome State Fault Refusal :=
  finishRes s (.ok (truth (decide (s.compare rs1 rs2 > 0))))

/-- GE (R180). -/
def execGe (rs1 rs2 : VReg) (s : State) : Host.Outcome State Fault Refusal :=
  finishRes s (.ok (truth (decide (s.compare rs1 rs2 ≥ 0))))

end Sys2Proof.Machine
end

