-- ==== Sys2Proof/Machine/Construct.lean ====
section
/-! DEFINITION. Construction, copy, accessors and status control (spec/40_construct_access.md R100 to R110): LDV, MOV, RDMAG,
RDMAGW, RDWID, RDSGN, CLRST. PARSE is in Machine/Text.lean. -/

namespace Sys2Proof.Machine

/-- LDV (R100): the magnitude is stored whole, not masked. -/
def execLdv (rd : VReg) (a : Imm) (sg : Bool) (s : State) : Host.Outcome State Fault Refusal :=
  finishV s rd (if badWidth a then .error .outOfRange else .ok ⟨s.readDin, a, sg⟩)

/-- MOV (R101): all three fields, unchanged. -/
def execMov (rd rs1 : VReg) (s : State) : Host.Outcome State Fault Refusal :=
  finishV s rd (.ok (s.left rs1))

/-- RDMAG (R102): the raw magnitude. -/
def execRdmag (rs1 : VReg) (s : State) : Host.Outcome State Fault Refusal :=
  finishRes s (.ok (s.left rs1).mag)

/-- RDMAGW (R103): the magnitude at width a, which `mask` clamps. -/
def execRdmagw (rs1 : VReg) (a : Imm) (s : State) : Host.Outcome State Fault Refusal :=
  finishRes s (.ok ((s.left rs1).mag &&& mask a.toNat))

/-- RDWID (R104): the width, zero-extended. -/
def execRdwid (rs1 : VReg) (s : State) : Host.Outcome State Fault Refusal :=
  finishRes s (.ok ((s.left rs1).w.setWidth 64))

/-- RDSGN (R105): the signed flag, zero-extended. -/
def execRdsgn (rs1 : VReg) (s : State) : Host.Outcome State Fault Refusal :=
  finishRes s (.ok (truth (s.left rs1).s))

/-- CLRST (R110): STICKY <- 0 and CODE <- 0. -/
def execClrst (s : State) : Host.Outcome State Fault Refusal :=
  finish s (.ok (s.setStatus (statusWord false 0)))

end Sys2Proof.Machine
end

