-- ==== Sys2Proof/Machine/Radix.lean ====
section
/-! DEFINITION. The rendering and parsing functions (spec/43_radix.md R213 to R217, R220, R221), over the ASCII codes of
spec/00_scope.md R12. -/

namespace Sys2Proof.Machine

/-! ## Digits -/

/-- The ASCII code of a digit 0..15, letters in upper case (R12, R214). -/
def digitChar (d : Nat) : Byte :=
  if d < 10 then BitVec.ofNat 8 (0x30 + d) else BitVec.ofNat 8 (0x41 + (d - 10))

/-- The value of a decimal digit's character (R220). -/
def decDigit (c : Byte) : Option Nat :=
  if 0x30 ≤ c.toNat ∧ c.toNat ≤ 0x39 then some (c.toNat - 0x30) else none

/-- The value of a hexadecimal digit's character, case-insensitive (R221). -/
def hexDigit (c : Byte) : Option Nat :=
  if 0x30 ≤ c.toNat ∧ c.toNat ≤ 0x39 then some (c.toNat - 0x30)
  else if 0x61 ≤ c.toNat ∧ c.toNat ≤ 0x66 then some (c.toNat - 0x61 + 10)
  else if 0x41 ≤ c.toNat ∧ c.toNat ≤ 0x46 then some (c.toNat - 0x41 + 10)
  else none

/-! ## Rendering -/

/-- The loop of R213 and R214: while v is not 0, prepend the character of v mod base and divide v by base. The loop
ends within 64 turns for every 64-bit v and base of 2 or more. -/
def digitsLoop (base : Nat) (turns v : Nat) (str : List Byte) : List Byte :=
  match turns with
  | 0 => str
  | k + 1 => if v = 0 then str else digitsLoop base k (v / base) (digitChar (v % base) :: str)

/-- dec(v): no padding, and "0" for 0 (R213). -/
def dec (v : Mag) : List Byte := if v = 0 then [0x30] else digitsLoop 10 64 v.toNat []

/-- ceil(fw / 4), the hexadecimal digits of a field of width fw (R214). -/
def hexLength (fw : Nat) : Nat := (fw + 3) / 4

/-- hex(v, fw): padded on the left with "0" to ceil(fw/4) characters (R214). -/
def hex (v : Mag) (fw : Nat) : List Byte :=
  let str := digitsLoop 16 64 v.toNat []
  List.replicate (hexLength fw - str.length) 0x30 ++ str

/-- The four binary characters of a hexadecimal digit's character (R215). -/
def nibble (c : Byte) : List Byte :=
  match hexDigit c with
  | some d => [digitChar (d / 8 % 2), digitChar (d / 4 % 2), digitChar (d / 2 % 2), digitChar (d % 2)]
  | none => []

/-- bin(v, fw): the rightmost fw characters of the nibbles of hex(v, fw) (R215). -/
def bin (v : Mag) (fw : Nat) : List Byte :=
  let str := (hex v fw).flatMap nibble
  str.drop (str.length - fw)

/-- render(v, fw, rx): the signed flag is not consulted (R217). -/
def render (v : Mag) (fw : Nat) (rx : Radix) : List Byte :=
  match rx with
  | .dec => dec v
  | .hex => hex v fw
  | .bin => bin v fw

/-! ## Parsing -/

/-- The exact value of a string of digits, or none if a character is no digit. -/
def digitsValue (base : Nat) (digit : Byte → Option Nat) (acc : Nat) (t : List Byte) : Option Nat :=
  match t with
  | [] => some acc
  | c :: rest =>
    match digit c with
    | some d => digitsValue base digit (acc * base + d) rest
    | none => none

/-- A non-empty string of digits whose value fits 64 bits; anything else is malformed, an error of kind e. -/
def parseDigits (base : Nat) (digit : Byte → Option Nat) (e : ErrorKind) (t : List Byte) : Except ErrorKind Mag :=
  if t = [] then .error e
  else
    match digitsValue base digit 0 t with
    | some v => if v > 2 ^ 64 - 1 then .error e else .ok (BitVec.ofNat 64 v)
    | none => .error e

/-- parse_dec(t) (R220). -/
def parseDec (t : List Byte) : Except ErrorKind Mag := parseDigits 10 decDigit .invalidArgument t

/-- hex2Dec(t) (R221). -/
def hex2Dec (t : List Byte) : Except ErrorKind Mag := parseDigits 16 hexDigit .unsupported t

end Sys2Proof.Machine
end

