-- ==== Sys2Proof/Machine/Text.lean ====
section
/-! DEFINITION. The radix formatter and parser (spec/43_radix.md R211, R212, R216, R222, R223): FMT, FMTF, PARSE, HEX2DEC. -/

namespace Sys2Proof.Machine

/-- The field [msb, lsb] of a magnitude, moved down to bit 0 (R216). -/
def bitField (m : Mag) (msb lsb : Nat) : Mag := (m &&& fieldmask lsb (msb - lsb + 1)) >>> lsb

/-- FMT (R212): the value masked to its width, at its width. -/
def execFmt (rs1 : VReg) (rx : Radix) (s : State) : Host.Outcome State Fault Refusal :=
  finishText s (.ok (render (s.left rs1).val (s.left rs1).w.toNat rx))

/-- FMTF (R216): the bit field [a, b], at its own width. -/
def execFmtf (rs1 : VReg) (rx : Radix) (a b : Imm) (s : State) : Host.Outcome State Fault Refusal :=
  finishText s
    (if a.toNat ≥ (s.left rs1).w.toNat then .error .outOfRange
     else if b.toNat > a.toNat then .error .outOfRange
     else .ok (render (bitField (s.left rs1).mag a.toNat b.toNat) (a.toNat - b.toNat + 1) rx))

/-- The number a text stands for in a radix. There is no binary text form (R78): such a term is no command
(notes/assumptions/13.md). -/
def parseText (rx : Radix) (t : List Byte) : Except ErrorKind Mag :=
  match rx with
  | .dec => parseDec t
  | .hex => hex2Dec t
  | .bin => .error .illegalCommand

/-- PARSE (R222): the parsed magnitude is stored whole, not masked. -/
def execParse (rd : VReg) (rx : Radix) (a : Imm) (sg : Bool) (s : State) : Host.Outcome State Fault Refusal :=
  finishV s rd
    (if rx = .bin then .error .illegalCommand
     else if badWidth a then .error .outOfRange
     else if s.tlen.toNat > 64 then .error .outOfRange
     else match parseText rx s.text with
      | .ok v => .ok ⟨v, a, sg⟩
      | .error e => .error e)

/-- HEX2DEC (R223). -/
def execHex2dec (s : State) : Host.Outcome State Fault Refusal :=
  finishRes s (if s.tlen.toNat > 64 then .error .outOfRange else hex2Dec s.text)

end Sys2Proof.Machine
end

