-- ==== Sys2Proof/Machine/Width.lean ====
section
/-! DEFINITION. Mask commands and width conversion (spec/41_mask_width.md R132 to R138): MASK, MASKF, TRUNC, SAT, EXPAND, SETW. -/

namespace Sys2Proof.Machine

/-- Truncation of x to width a, the width already checked (R135). -/
def truncated (x : Value) (a : Imm) : Value := ⟨x.mag &&& mask a.toNat, a, x.s⟩

/-- Saturation of x to width a, the width already checked (R136). The test reads the raw magnitude. -/
def saturated (x : Value) (a : Imm) : Except ErrorKind Value :=
  if x.s then .error .unsupported
  else if x.mag &&& ~~~(mask a.toNat) ≠ 0 then .ok ⟨mask a.toNat, a, x.s⟩
  else .ok ⟨x.mag &&& mask a.toNat, a, x.s⟩

/-- Expansion of x to width a, the range of the width already checked (R137). -/
def expanded (x : Value) (a : Imm) : Except ErrorKind Value :=
  if a.toNat < x.w.toNat then .error .outOfRange
  else if x.s then .error .unsupported
  else .ok ⟨x.mag &&& x.mask, a, x.s⟩

/-- MASK (R132). -/
def execMask (a : Imm) (s : State) : Host.Outcome State Fault Refusal :=
  finishRes s (.ok (mask a.toNat))

/-- MASKF (R134): b is the lsb, a the width. -/
def execMaskf (b a : Imm) (s : State) : Host.Outcome State Fault Refusal :=
  finishRes s (.ok (fieldmask b.toNat a.toNat))

/-- TRUNC (R133, R135). -/
def execTrunc (rd rs1 : VReg) (a : Imm) (s : State) : Host.Outcome State Fault Refusal :=
  finishV s rd (if badWidth a then .error .outOfRange else .ok (truncated (s.left rs1) a))

/-- SAT (R133, R136). -/
def execSat (rd rs1 : VReg) (a : Imm) (s : State) : Host.Outcome State Fault Refusal :=
  finishV s rd (if badWidth a then .error .outOfRange else saturated (s.left rs1) a)

/-- EXPAND (R133, R137). -/
def execExpand (rd rs1 : VReg) (a : Imm) (s : State) : Host.Outcome State Fault Refusal :=
  finishV s rd (if badWidth a then .error .outOfRange else expanded (s.left rs1) a)

/-- SETW (R133, R138): expand when the width grows, else saturate. -/
def execSetw (rd rs1 : VReg) (a : Imm) (s : State) : Host.Outcome State Fault Refusal :=
  finishV s rd
    (if badWidth a then .error .outOfRange
     else if a.toNat > (s.left rs1).w.toNat then expanded (s.left rs1) a
     else saturated (s.left rs1) a)

end Sys2Proof.Machine
end

