-- ==== Sys2Proof/Machine/Dispatch.lean ====
section
/-! DEFINITION. The meaning of each command, one arm per constructor of Instr. -/

namespace Sys2Proof.Machine

def exec (i : Instr) (s : State) : Host.Outcome State Fault Refusal :=
  match i with
  -- construction, copy, accessors (40_construct_access.md, 43_radix.md)
  | .ldv rd a sg => Sys2Proof.Machine.execLdv rd a sg s
  | .parse rd rx a sg => Sys2Proof.Machine.execParse rd rx a sg s
  | .mov rd rs1 => Sys2Proof.Machine.execMov rd rs1 s
  | .rdmag rs1 => Sys2Proof.Machine.execRdmag rs1 s
  | .rdmagw rs1 a => Sys2Proof.Machine.execRdmagw rs1 a s
  | .rdwid rs1 => Sys2Proof.Machine.execRdwid rs1 s
  | .rdsgn rs1 => Sys2Proof.Machine.execRdsgn rs1 s
  -- width conversion (41_mask_width.md)
  | .trunc rd rs1 a => Sys2Proof.Machine.execTrunc rd rs1 a s
  | .sat rd rs1 a => Sys2Proof.Machine.execSat rd rs1 a s
  | .expand rd rs1 a => Sys2Proof.Machine.execExpand rd rs1 a s
  | .setw rd rs1 a => Sys2Proof.Machine.execSetw rd rs1 a s
  -- bitwise and arithmetic (42_bitwise_arith.md)
  | .and rd rs1 rs2 => Sys2Proof.Machine.execAnd rd rs1 rs2 s
  | .or rd rs1 rs2 => Sys2Proof.Machine.execOr rd rs1 rs2 s
  | .xor rd rs1 rs2 => Sys2Proof.Machine.execXor rd rs1 rs2 s
  | .not rd rs1 => Sys2Proof.Machine.execNot rd rs1 s
  | .shl rd rs1 a => Sys2Proof.Machine.execShl rd rs1 a s
  | .shr rd rs1 a => Sys2Proof.Machine.execShr rd rs1 a s
  | .revb rd rs1 a => Sys2Proof.Machine.execRevb rd rs1 a s
  | .getb rs1 a => Sys2Proof.Machine.execGetb rs1 a s
  | .add rd rs1 rs2 => Sys2Proof.Machine.execAdd rd rs1 rs2 s
  | .sub rd rs1 rs2 => Sys2Proof.Machine.execSub rd rs1 rs2 s
  -- comparison (42_bitwise_arith.md)
  | .cmp rs1 rs2 => Sys2Proof.Machine.execCmp rs1 rs2 s
  | .eq rs1 rs2 => Sys2Proof.Machine.execEq rs1 rs2 s
  | .ne rs1 rs2 => Sys2Proof.Machine.execNe rs1 rs2 s
  | .lt rs1 rs2 => Sys2Proof.Machine.execLt rs1 rs2 s
  | .le rs1 rs2 => Sys2Proof.Machine.execLe rs1 rs2 s
  | .gt rs1 rs2 => Sys2Proof.Machine.execGt rs1 rs2 s
  | .ge rs1 rs2 => Sys2Proof.Machine.execGe rs1 rs2 s
  -- formatting (43_radix.md)
  | .fmt rs1 rx => Sys2Proof.Machine.execFmt rs1 rx s
  | .fmtf rs1 rx a b => Sys2Proof.Machine.execFmtf rs1 rx a b s
  -- helpers and status control
  | .mask a => Sys2Proof.Machine.execMask a s
  | .maskf b a => Sys2Proof.Machine.execMaskf b a s
  | .hex2dec => Sys2Proof.Machine.execHex2dec s
  | .clrst => Sys2Proof.Machine.execClrst s

end Sys2Proof.Machine
end

