-- ==== Sys2Proof/Machine/HostPort.lean ====
section
/-! DEFINITION. The host register window, the reset input, and running a command word (spec/20_memory.md R50 to R58,
spec/70_reset_and_hazards.md R350). -/

namespace Sys2Proof.Machine

/-- The register at an offset of the host window, or none where the map defines no access (R51, R54). -/
def portAt (offset : Nat) : Option PortReg :=
  if offset = 0x00 then some .cmd
  else if offset = 0x04 then some .status
  else if offset = 0x08 then some .din
  else if offset = 0x10 then some .res
  else if offset = 0x18 then some .tlen
  else if 0x40 ≤ offset ∧ offset ≤ 0x7F then some (.txt (offset - 0x40))
  else none

/-- The size in bits of every access of a register (R51). -/
def PortReg.bits (r : PortReg) : Nat :=
  match r with
  | .cmd => 32
  | .status => 32
  | .din => 64
  | .res => 64
  | .tlen => 32
  | .txt _ => 8

/-- Execute a word written to CMD as one command (R52). A word that spells no command raises IllegalCommand (R79). -/
def runCommand (w : Word) (s : State) : Host.Outcome State Fault Refusal :=
  match decode w with
  | .ok i => exec i s
  | .error _ => finish s (.error .illegalCommand)

/-- The data a host read returns, zero-extended to 64 bits (R51). -/
def portRead (r : PortReg) (s : State) : BitVec 64 :=
  match r with
  | .cmd => 0
  | .status => s.status.setWidth 64
  | .din => s.readDin
  | .res => s.readRes
  | .tlen => s.tlen.setWidth 64
  | .txt k => (s.readTxt k).setWidth 64

/-- What a host write does (R51): to CMD it executes the word, to STATUS and RES it is ignored. -/
def portWrite (r : PortReg) (data : BitVec 64) (s : State) : Host.Outcome State Fault Refusal :=
  match r with
  | .cmd => runCommand (data.setWidth 32) s
  | .status => .next s
  | .din => .next (s.setDin data)
  | .res => .next s
  | .tlen => .next (s.setTlen (data.setWidth 7))
  | .txt k => .next (s.setTxt k (data.setWidth 8))

/-- A host access: refused while reset is asserted (R350), a fault where the map does not define it (R51, R315). -/
def access (offset bits : Nat) (act : PortReg → Host.Outcome State Fault Refusal) (s : State) :
    Host.Outcome State Fault Refusal :=
  if s.resetAsserted then .refused .accessDuringReset
  else
    match portAt offset with
    | none => .fault .undefinedOffset
    | some r => if bits = r.bits then act r else .fault .wrongAccessSize

/-- Return data to the host. -/
def State.reply (s : State) (data : BitVec 64) : State := { s with replies := data :: s.replies }

/-- The state when reset is released: that of R35, with the host's coming events, the data it has read and the count of
events as they are (R350). -/
def State.released (s : State) : State :=
  { State.reset with inputs := s.inputs, replies := s.replies, tick := s.tick }

/-- The reset input changes level (R350). Its release, from asserted to not asserted, leaves the state of R35. -/
def resetInput (asserted : Bool) (s : State) : Host.Outcome State Fault Refusal :=
  .next (if asserted then { s with resetAsserted := true }
    else if s.resetAsserted then s.released else s)

/-- Serve one event of the outside world. -/
def serve (e : HostEvent) (s : State) : Host.Outcome State Fault Refusal :=
  match e with
  | .read offset bits => access offset bits (fun r => .next (s.reply (portRead r s))) s
  | .write offset bits data => access offset bits (fun r => portWrite r data s) s
  | .resetInput asserted => resetInput asserted s

/-- The state in which the next event is served: the events after it still to come, and fresh draws. -/
def State.advance (s : State) (rest : List HostEvent) : State := { s with inputs := rest, tick := s.tick + 1 }

/-- The host's write of a command word to CMD (R51, R52). -/
def commandWrite (w : Word) : HostEvent := .write 0x00 32 (w.setWidth 64)

end Sys2Proof.Machine
end

