-- ==== Sys2Proof/Machine/Step.lean ====
section
/-! DEFINITION. One step: the block serves the next event of the outside world (spec/20_memory.md R52, R58;
spec/70_reset_and_hazards.md R360). It has no program counter and fetches nothing (spec/10_state.md R25). -/

namespace Sys2Proof.Machine

/-- One step. With no event to serve the block waits: it does nothing of its own accord (R25, R34). -/
def step (s : State) : Host.Outcome State Fault Refusal :=
  match s.inputs with
  | [] => .next s
  | e :: rest => serve e (s.advance rest)

/-- The state whose next step executes the word w: the host's write of w to CMD comes next, and the reset input, which
would stop it, is not asserted. A command is one 32-bit word (R70). -/
def State.withFetchWord (s : State) (nbits w : Nat) : State :=
  { s with
    resetAsserted := false
    inputs := commandWrite (BitVec.ofNat 32 (w % 2 ^ nbits)) :: s.inputs }

end Sys2Proof.Machine
end

