-- ==== Sys2Proof/Machine/Assembler.lean ====
section
/-! DEFINITION. The assembler syntax and the pseudo-instructions (spec/30_encoding.md R90, R91): one command a line, the
mnemonic and then its operands separated by commas. -/

namespace Sys2Proof.Machine

/-! ## Cutting a line into words -/

/-- A blank between words (notes/assumptions/14.md). -/
def blankChar (c : Char) : Bool := c == ' ' || c == '\t'

/-- The word without the blanks around it. -/
def trimBlanks (t : List Char) : List Char :=
  ((t.dropWhile blankChar).reverse.dropWhile blankChar).reverse

/-- The pieces of a text between commas, blanks trimmed. -/
def splitCommas (piece rest : List Char) : List (List Char) :=
  match rest with
  | [] => [trimBlanks piece.reverse]
  | c :: more =>
    if c == ',' then trimBlanks piece.reverse :: splitCommas [] more else splitCommas (c :: piece) more

/-- The operands of a line: none where nothing but blanks follows the mnemonic. -/
def operandsOf (rest : List Char) : List (List Char) :=
  if trimBlanks rest = [] then [] else splitCommas [] rest

/-- A letter in upper case: mnemonics are case-insensitive (R90). -/
def upper (c : Char) : Char :=
  if 'a'.toNat ≤ c.toNat ∧ c.toNat ≤ 'z'.toNat then Char.ofNat (c.toNat - 32) else c

/-! ## Operands (R90) -/

/-- A register, `v0` to `v7`. -/
def asmReg (t : List Char) : Option VReg :=
  match t with
  | ['v', c] => if '0'.toNat ≤ c.toNat ∧ c.toNat ≤ '7'.toNat then some (Fin.ofNat 8 (c.toNat - '0'.toNat)) else none
  | _ => none

/-- The value of a string of digits, at least one. -/
def asmNat (base : Nat) (digit : Byte → Option Nat) (t : List Char) : Option Nat :=
  if t = [] ∨ t.any (fun c => c.toNat > 127) then none
  else digitsValue base digit 0 (t.map (fun c => BitVec.ofNat 8 c.toNat))

/-- An immediate, in decimal or with a `0x` prefix. One that does not fit its 7-bit field is an assembly error. -/
def asmImm (t : List Char) : Option Imm :=
  let n :=
    match t with
    | '0' :: 'x' :: h => asmNat 16 hexDigit h
    | _ => asmNat 10 decDigit t
  match n with
  | some k => if k < 128 then some (BitVec.ofNat 7 k) else none
  | none => none

/-- A radix, `d`, `x` or `b`. -/
def asmRadix (t : List Char) : Option Radix :=
  match t with
  | ['d'] => some .dec
  | ['x'] => some .hex
  | ['b'] => some .bin
  | _ => none

/-- A signedness, `u` or `s`. -/
def asmSign (t : List Char) : Option Bool :=
  match t with
  | ['u'] => some false
  | ['s'] => some true
  | _ => none

/-! ## The operand lists of R90, with the pseudo-instructions of R91 -/

/-- `vd`, `vd, w` and `vd, w, u|s`; the defaults are width 64 and unsigned. -/
def asmLdv (ops : List (List Char)) : Option Instr :=
  match ops with
  | [d] => do return .ldv (← asmReg d) 64 false
  | [d, w] => do return .ldv (← asmReg d) (← asmImm w) false
  | [d, w, u] => do return .ldv (← asmReg d) (← asmImm w) (← asmSign u)
  | _ => none

/-- A radix PARSE has: `d` or `x`. -/
def asmParseRadix (t : List Char) : Option Radix :=
  match asmRadix t with
  | some .bin => none
  | r => r

/-- `vd, d|x, w` and `vd, d|x, w, u|s`; the default is unsigned. -/
def asmParse (ops : List (List Char)) : Option Instr :=
  match ops with
  | [d, r, w] => do return .parse (← asmReg d) (← asmParseRadix r) (← asmImm w) false
  | [d, r, w, u] => do return .parse (← asmReg d) (← asmParseRadix r) (← asmImm w) (← asmSign u)
  | _ => none

/-- No operand. -/
def asmNone (i : Instr) (ops : List (List Char)) : Option Instr :=
  match ops with
  | [] => some i
  | _ => none

/-- `vs`. -/
def asmReg1 (mk : VReg → Instr) (ops : List (List Char)) : Option Instr :=
  match ops with
  | [a] => do return mk (← asmReg a)
  | _ => none

/-- Two registers. -/
def asmReg2 (mk : VReg → VReg → Instr) (ops : List (List Char)) : Option Instr :=
  match ops with
  | [a, b] => do return mk (← asmReg a) (← asmReg b)
  | _ => none

/-- `vd, vs`, and in place `vd`. -/
def asmUnary (mk : VReg → VReg → Instr) (ops : List (List Char)) : Option Instr :=
  match ops with
  | [d] => do return mk (← asmReg d) (← asmReg d)
  | _ => asmReg2 mk ops

/-- `vd, vs1, vs2`, and in place `vd, vs`. -/
def asmBinary (mk : VReg → VReg → VReg → Instr) (ops : List (List Char)) : Option Instr :=
  match ops with
  | [d, r] => do return mk (← asmReg d) (← asmReg d) (← asmReg r)
  | [d, l, r] => do return mk (← asmReg d) (← asmReg l) (← asmReg r)
  | _ => none

/-- A register and an immediate. -/
def asmRegImm (mk : VReg → Imm → Instr) (ops : List (List Char)) : Option Instr :=
  match ops with
  | [a, n] => do return mk (← asmReg a) (← asmImm n)
  | _ => none

/-- `vd, vs, n`. -/
def asmShift (mk : VReg → VReg → Imm → Instr) (ops : List (List Char)) : Option Instr :=
  match ops with
  | [d, a, n] => do return mk (← asmReg d) (← asmReg a) (← asmImm n)
  | _ => none

/-- `vd, vs, n`, and in place `vd, n`. -/
def asmInPlace (mk : VReg → VReg → Imm → Instr) (ops : List (List Char)) : Option Instr :=
  match ops with
  | [d, n] => do return mk (← asmReg d) (← asmReg d) (← asmImm n)
  | _ => asmShift mk ops

/-- `vs, d|x|b`; the default is decimal. -/
def asmFmt (ops : List (List Char)) : Option Instr :=
  match ops with
  | [a] => do return .fmt (← asmReg a) .dec
  | [a, r] => do return .fmt (← asmReg a) (← asmRadix r)
  | _ => none

/-- `vs, d|x|b, msb, lsb`; the default is decimal. -/
def asmFmtf (ops : List (List Char)) : Option Instr :=
  match ops with
  | [a, m, l] => do return .fmtf (← asmReg a) .dec (← asmImm m) (← asmImm l)
  | [a, r, m, l] => do return .fmtf (← asmReg a) (← asmRadix r) (← asmImm m) (← asmImm l)
  | _ => none

/-- `w`. -/
def asmMask (ops : List (List Char)) : Option Instr :=
  match ops with
  | [w] => do return .mask (← asmImm w)
  | _ => none

/-- `lsb, w`. -/
def asmMaskf (ops : List (List Char)) : Option Instr :=
  match ops with
  | [l, w] => do return .maskf (← asmImm l) (← asmImm w)
  | _ => none

/-- The operand list of each mnemonic, the mnemonic in upper case (R90, R91). -/
def asmForms : List (String × (List (List Char) → Option Instr)) :=
  [("LDV", asmLdv), ("PARSE", asmParse), ("MOV", asmReg2 .mov), ("RDMAG", asmReg1 .rdmag),
   ("RDMAGW", asmRegImm .rdmagw), ("RDWID", asmReg1 .rdwid), ("RDSGN", asmReg1 .rdsgn),
   ("TRUNC", asmInPlace .trunc), ("SAT", asmInPlace .sat), ("EXPAND", asmInPlace .expand),
   ("SETW", asmInPlace .setw)] ++
  [("AND", asmBinary .and), ("OR", asmBinary .or), ("XOR", asmBinary .xor), ("NOT", asmUnary .not),
   ("SHL", asmShift .shl), ("SHR", asmShift .shr), ("REVB", asmInPlace .revb), ("GETB", asmRegImm .getb),
   ("ADD", asmBinary .add), ("SUB", asmBinary .sub)] ++
  [("CMP", asmReg2 .cmp), ("EQ", asmReg2 .eq), ("NE", asmReg2 .ne), ("LT", asmReg2 .lt), ("LE", asmReg2 .le),
   ("GT", asmReg2 .gt), ("GE", asmReg2 .ge), ("FMT", asmFmt), ("FMTF", asmFmtf), ("MASK", asmMask),
   ("MASKF", asmMaskf), ("HEX2DEC", asmNone .hex2dec), ("CLRST", asmNone .clrst)]

/-! ## A line -/

/-- The mnemonic of a line: its first word, in upper case, for mnemonics are case-insensitive (R90). -/
def mnemonicWord (line : String) : List Char :=
  ((trimBlanks line.toList).takeWhile (fun c => !blankChar c)).map upper

/-- The operands of a line: what follows the mnemonic, cut at the commas (R90). -/
def operandTexts (line : String) : List (List Char) :=
  operandsOf ((trimBlanks line.toList).dropWhile (fun c => !blankChar c))

/-- The command a mnemonic and its operands spell, or none where they are an assembly error (R90, R91). -/
def assembleWords (name : List Char) (ops : List (List Char)) : Option Instr :=
  match asmForms.find? (fun f => f.1.toList == name) with
  | some f => f.2 ops
  | none => none

/-- The command a line of assembler text spells, or none where it is an assembly error (R90, R91). -/
def assemble (line : String) : Option Instr := assembleWords (mnemonicWord line) (operandTexts line)

/-! ## The terms in which the statements speak of lines -/

/-- The line is the mnemonic, in letters of either case, and the operands. -/
abbrev Spells (line name : String) (ops : List (List Char)) : Prop :=
  mnemonicWord line = name.toList ∧ operandTexts line = ops

/-- Every line of the mnemonic and these operands is the command i. -/
def SpellsCommand (name : String) (ops : List (List Char)) (i : Instr) : Prop :=
  ∀ line, Spells line name ops → assemble line = some i

/-- A line with the short operands is what a line with the full ones is: the same command, or an error as well (R91). -/
def Expands (name : String) (short full : List (List Char)) : Prop :=
  ∀ line line', Spells line name short → Spells line' name full → assemble line = assemble line'

end Sys2Proof.Machine
end

