-- ==== Sys2Proof/Safety.lean ====
section
/-! DEFINITION. What counts as a safe run, and the terms in which claims speak of one command: what it writes, what it
leaves as it was, and how it ends. Everything here is said through the reads of the state (what a register or a byte
holds if it has been written), so a register that nothing has written has no contents to speak of. -/

namespace Sys2Proof.Machine

/-! ## The invariant of every run -/

/-- Every width is in [1,64] (R22). -/
abbrev State.WidthsLegal (s : State) : Prop :=
  ∀ i : VReg, 1 ≤ (s.v[i.val]).w.toNat ∧ (s.v[i.val]).w.toNat ≤ 64

/-- STATUS as R27 has it: bits [31:4] are 0, CODE is one of 0 to 4, and a CODE that is not 0 comes with STICKY. -/
abbrev State.StatusLegal (s : State) : Prop :=
  s.status.extractLsb' 4 28 = 0 ∧ s.code.toNat ≤ 4 ∧ (s.code ≠ 0 → s.sticky = true)

/-- The invariant: legal widths, the text buffer in canonical form, a legal STATUS. -/
abbrev State.Inv (s : State) : Prop := s.WidthsLegal ∧ s.txt.wf ∧ s.StatusLegal

/-- A step is safe if it neither faults nor is refused. -/
def SafeStep (s : State) : Prop := ∃ t, step s = .next t

/-! ## What stays as it was -/

/-- Every value register holds what it held. -/
def SameV (s t : State) : Prop := ∀ i : VReg, t.contents i = s.contents i

/-- Every value register but rd holds what it held. -/
def SameVBut (rd : VReg) (s t : State) : Prop := ∀ i : VReg, i ≠ rd → t.contents i = s.contents i

/-- TLEN and every byte of TXT hold what they held. -/
def SameText (s t : State) : Prop := t.tlen = s.tlen ∧ ∀ k, t.txt.read k = s.txt.read k

/-- The host's side is as it was: the reset input, the coming events, the data read, the count of events. -/
def SamePort (s t : State) : Prop :=
  t.resetAsserted = s.resetAsserted ∧ t.inputs = s.inputs ∧ t.replies = s.replies ∧ t.tick = s.tick

/-- All but STATUS is as it was. -/
def SameButStatus (s t : State) : Prop :=
  SameV s t ∧ t.resContents = s.resContents ∧ t.dinContents = s.dinContents ∧ SameText s t ∧ SamePort s t

/-- Two states no read can tell apart. -/
def SameReads (s t : State) : Prop := SameButStatus s t ∧ t.status = s.status

/-! ## How a command ends -/

/-- STATUS reports completion: CODE is 0, STICKY as it was, bits [31:4] are 0 (R27, R302). -/
def ReportsOk (s t : State) : Prop := t.code = 0 ∧ t.sticky = s.sticky ∧ t.status.extractLsb' 4 28 = 0

/-- The command ends in error e: CODE is e's, STICKY is 1, bits [31:4] are 0, and nothing else changes (R302, R303). -/
def Fails (e : ErrorKind) (s t : State) : Prop :=
  t.code = e.code ∧ t.sticky = true ∧ t.status.extractLsb' 4 28 = 0 ∧ SameButStatus s t

/-- The command completes with V[rd] <- x and writes nothing else but STATUS. -/
def WritesV (rd : VReg) (x : Value) (s t : State) : Prop :=
  t.contents rd = some x ∧ SameVBut rd s t ∧ t.resContents = s.resContents ∧ t.dinContents = s.dinContents ∧
    SameText s t ∧ SamePort s t ∧ ReportsOk s t

/-- The command completes with RES <- x and writes nothing else but STATUS. -/
def WritesRes (x : Mag) (s t : State) : Prop :=
  t.resContents = some x ∧ SameV s t ∧ t.dinContents = s.dinContents ∧ SameText s t ∧ SamePort s t ∧ ReportsOk s t

/-- The buffer holds the string in all of its 64 bytes, 0x00 past the string's end, and TLEN its length (R211). -/
def HoldsText (str : List Byte) (t : State) : Prop :=
  t.tlen.toNat = str.length ∧ ∀ k, k < 64 → t.txt.read k = some (str.getD k 0x00)

/-- The command completes with the string in TXT and TLEN and writes nothing else but STATUS. -/
def WritesText (str : List Byte) (s t : State) : Prop :=
  HoldsText str t ∧ SameV s t ∧ t.resContents = s.resContents ∧ t.dinContents = s.dinContents ∧ SamePort s t ∧
    ReportsOk s t

/-- The command's word has the opcode and the format of the row, and decodes to it (R72, R75). -/
def Encoded (op : BitVec 6) (f : Format) (i : Instr) : Prop :=
  decode (encode i) = .ok i ∧ opOf (encode i) = op ∧ reservedZero f (encode i) = true

/-! ## Texts, said without the machine's rendering loops (R12, R213 to R215) -/

/-- The characters of R214, as ASCII codes: "0123456789ABCDEF". -/
def hexChars : List Byte :=
  [0x30, 0x31, 0x32, 0x33, 0x34, 0x35, 0x36, 0x37, 0x38, 0x39, 0x41, 0x42, 0x43, 0x44, 0x45, 0x46]

/-- The string is a decimal numeral of n: digits only, at least one, worth n. -/
def ReadsDecimal (str : List Byte) (n : Nat) : Prop :=
  str ≠ [] ∧ (∀ c ∈ str, 0x30 ≤ c.toNat ∧ c.toNat ≤ 0x39) ∧
    str.foldl (fun acc c => acc * 10 + (c.toNat - 0x30)) 0 = n

/-- The string is the decimal numeral of n without padding: no leading "0" but that of "0" itself. -/
def DecimalText (str : List Byte) (n : Nat) : Prop :=
  ReadsDecimal str n ∧ (str.head? = some 0x30 → str = [0x30])

/-- The string is n in exactly ceil(fw/4) upper-case hexadecimal digits. -/
def HexText (str : List Byte) (n fw : Nat) : Prop :=
  str.length = (fw + 3) / 4 ∧
    ∀ k, k < str.length → str[k]? = hexChars[n / 16 ^ (str.length - 1 - k) % 16]?

/-- The string is the fw low bits of n, bit fw-1 first. -/
def BinText (str : List Byte) (n fw : Nat) : Prop :=
  str.length = fw ∧ ∀ k, k < fw → str[k]? = some (if n.testBit (fw - 1 - k) then 0x31 else 0x30)

/-- The string is the text of n at field width fw in a radix (R217). -/
def TextOf (str : List Byte) (n fw : Nat) (rx : Radix) : Prop :=
  match rx with
  | .dec => DecimalText str n
  | .hex => HexText str n fw
  | .bin => BinText str n fw

/-- The value of a hexadecimal digit, letters in either case, as its place in a table of characters (R12, R221). -/
def HexDigitIs (c : Byte) (d : Nat) : Prop :=
  d < 16 ∧ (hexChars[d]? = some c ∨ (10 ≤ d ∧ c.toNat = 0x61 + (d - 10)))

/-- The string is a hexadecimal numeral of n: hexadecimal digits only, at least one, worth n. -/
def ReadsHex (str : List Byte) (n : Nat) : Prop :=
  str ≠ [] ∧ ∃ ds : List Nat, List.Forall₂ HexDigitIs str ds ∧ ds.foldl (fun acc d => acc * 16 + d) 0 = n

/-- The width invariant of a value: no bit at or above its width (R23). -/
def Value.Masked (x : Value) : Prop := x.mag.toNat < 2 ^ x.w.toNat

/-- A value but for its signed flag. -/
def Value.unsignedPart (x : Value) : Mag × Imm := (x.mag, x.w)

/-- Two states alike but for the signed flags of the value registers. -/
def SameButSigns (s t : State) : Prop :=
  (∀ i : VReg, (t.contents i).map Value.unsignedPart = (s.contents i).map Value.unsignedPart) ∧
    t.resContents = s.resContents ∧ t.dinContents = s.dinContents ∧ SameText s t ∧ SamePort s t ∧ t.status = s.status

end Sys2Proof.Machine

namespace Sys2Proof

/-! ## What each command writes beside STATUS (R33) -/

/-- Where a command's result goes. -/
inductive Target where
  | v (rd : VReg)
  | res
  | text
  | none
  deriving DecidableEq, Repr

/-- Where each command's result goes (the columns V[rd], RES, TLEN and TXT of R33). -/
def Instr.target (i : Instr) : Target :=
  match i with
  | .ldv rd .. | .parse rd .. | .mov rd .. => .v rd
  | .trunc rd .. | .sat rd .. | .expand rd .. | .setw rd .. => .v rd
  | .and rd .. | .or rd .. | .xor rd .. | .not rd .. | .shl rd .. | .shr rd .. | .revb rd .. => .v rd
  | .add rd .. | .sub rd .. => .v rd
  | .rdmag .. | .rdmagw .. | .rdwid .. | .rdsgn .. | .getb .. => .res
  | .cmp .. | .eq .. | .ne .. | .lt .. | .le .. | .gt .. | .ge .. => .res
  | .mask .. | .maskf .. | .hex2dec => .res
  | .fmt .. | .fmtf .. => .text
  | .clrst => .none

/-- The command computes a new magnitude, so that what it writes keeps the width invariant (R23). REVB computes one only
when it toggles, so it is not among them. -/
def Instr.computes (i : Instr) : Bool :=
  match i with
  | .trunc .. | .sat .. | .expand .. | .setw .. => true
  | .and .. | .or .. | .xor .. | .not .. | .shl .. | .shr .. | .add .. | .sub .. => true
  | .revb .. | .ldv .. | .parse .. | .mov .. | .rdmag .. | .rdmagw .. | .rdwid .. | .rdsgn .. | .getb .. => false
  | .cmp .. | .eq .. | .ne .. | .lt .. | .le .. | .gt .. | .ge .. => false
  | .fmt .. | .fmtf .. | .mask .. | .maskf .. | .hex2dec | .clrst => false

/-- The command's outcome may depend on a signed flag: SAT, EXPAND, SETW, AND, OR and XOR may fail because of one (R24),
and RDSGN returns one (R105). -/
def Instr.readsSign (i : Instr) : Bool :=
  match i with
  | .sat .. | .expand .. | .setw .. | .and .. | .or .. | .xor .. | .rdsgn .. => true
  | .trunc .. | .not .. | .shl .. | .shr .. | .revb .. | .add .. | .sub .. => false
  | .ldv .. | .parse .. | .mov .. | .rdmag .. | .rdmagw .. | .rdwid .. | .getb .. => false
  | .cmp .. | .eq .. | .ne .. | .lt .. | .le .. | .gt .. | .ge .. => false
  | .fmt .. | .fmtf .. | .mask .. | .maskf .. | .hex2dec | .clrst => false

end Sys2Proof
end

