-- ==== Sys2Proof/Certificates/Slice0/Obligations.lean ====
section
/-! DEFINITION. The statements for the provers. Each formalises numbered rules of spec/, named in its docstring. A command's
operands are what its reads get (`State.left`, `State.right`, `State.readDin`, `State.text`): the contents of a register
or byte that has been written, else a free value, so that every statement holds whatever the free values are. -/

open Sys2Proof Sys2Proof.Machine

/-! ## Encoding (30_encoding.md) -/

/-- R70 to R80: the word of every well-formed command decodes to that command, with every operand it had. -/
def Obligations.DecodingAnEncodedCommandGivesItBack : Prop :=
  ∀ i : Instr, i.wellFormed = true → decode (encode i) = .ok i

/-- R79: a word spells one command only, and it is that command's word bit for bit. -/
def Obligations.EncodingADecodedWordGivesItBack : Prop :=
  ∀ (w : Word) (i : Instr), decode w = .ok i → encode i = w ∧ i.wellFormed = true

/-- R75: a word spells the command of a row exactly when x & mask == match and the row's rx constraint holds; the rows are
those of the printed map, and the decoder does not read them. -/
def Obligations.DecodingFollowsTheOpcodeMap : Prop :=
  ∀ (w : Word) (row : OpcodeRow), row ∈ opcodeTable →
    (row.spells w = true ↔ ∃ i, decode w = .ok i ∧ i.head = (row.mnemonic, row.op, row.format))

/-- R79: every word spells exactly one command of the map, or running it raises IllegalCommand. -/
def Obligations.EveryWordIsOneCommandOrIllegal : Prop :=
  ∀ (w : Word) (s : State),
    (∃! row, row ∈ opcodeTable ∧ row.spells w = true) ∨
      ((∀ row ∈ opcodeTable, row.spells w = false) ∧ ∃ t, runCommand w s = .next t ∧ Fails .illegalCommand s t)

/-- R76, R77, R78: a reserved opcode, a 1 in a must-be-zero field, and a reserved radix raise IllegalCommand. -/
def Obligations.ReservedEncodingsRaiseIllegalCommand : Prop :=
  ∀ (w : Word) (s : State),
    ((opOf w).toNat = 0x00 ∨ (0x0C ≤ (opOf w).toNat ∧ (opOf w).toNat ≤ 0x0F) ∨
      (0x1A ≤ (opOf w).toNat ∧ (opOf w).toNat ≤ 0x1F) ∨ (opOf w).toNat = 0x27 ∨
      (0x2A ≤ (opOf w).toNat ∧ (opOf w).toNat ≤ 0x2F) ∨ (0x33 ≤ (opOf w).toNat ∧ (opOf w).toNat ≤ 0x3E) ∨
      ∃ row ∈ opcodeTable, opOf w = row.op ∧ (reservedZero row.format w = false ∨ rxAllowed row.format w = false)) →
    ∃ t, runCommand w s = .next t ∧ Fails .illegalCommand s t

/-- Sanity: words written out in the spec (the examples of the command rules) decode to the commands they stand for. -/
def Obligations.WordsOfTheSpecDecode : Prop :=
  decode 0x04000008 = .ok (.ldv 0 8 false) ∧ decode 0x0D100000 = .ok (.mov 2 1) ∧
    decode 0x28800010 = .ok (.expand 1 0 16) ∧ decode 0x61020000 = .ok (.add 2 0 1) ∧
    decode 0x80020000 = .ok (.cmp 0 1) ∧ decode 0xA400820B = .ok (.fmtf 0 .hex 11 4) ∧
    decode 0x0800C010 = .ok (.parse 0 .hex 16 true) ∧ decode 0xC4000204 = .ok (.maskf 4 4) ∧
    decode 0xFC000001 = .error .reservedField ∧ decode 0xA0018000 = .error .reservedRadix ∧
    decode 0 = .error .reservedOpcode

/-- R91, mnemonic by mnemonic: a line in the pseudo-instruction's form is what the line with the expansion's operands is;
and where its operands read as registers, radices and immediates, it is the command the expansion names. -/
def Obligations.PseudoInstructionsExpand : Prop :=
  (∀ d r w x m l : List Char,
    Expands "LDV" [d] [d, ['6', '4'], ['u']] ∧ Expands "LDV" [d, w] [d, w, ['u']] ∧
    Expands "PARSE" [d, x, w] [d, x, w, ['u']] ∧
    Expands "TRUNC" [d, w] [d, d, w] ∧ Expands "SAT" [d, w] [d, d, w] ∧ Expands "EXPAND" [d, w] [d, d, w] ∧
    Expands "SETW" [d, w] [d, d, w] ∧ Expands "REVB" [d, w] [d, d, w] ∧ Expands "NOT" [d] [d, d] ∧
    Expands "AND" [d, r] [d, d, r] ∧ Expands "OR" [d, r] [d, d, r] ∧ Expands "XOR" [d, r] [d, d, r] ∧
    Expands "ADD" [d, r] [d, d, r] ∧ Expands "SUB" [d, r] [d, d, r] ∧
    Expands "FMT" [d] [d, ['d']] ∧ Expands "FMTF" [d, m, l] [d, ['d'], m, l]) ∧
  ∀ (d r w x l : List Char) (rd rs : VReg) (a b : Imm) (rx : Radix),
    asmReg d = some rd → asmReg r = some rs → asmImm w = some a → asmImm l = some b → asmRadix x = some rx →
    SpellsCommand "LDV" [d] (.ldv rd 64 false) ∧ SpellsCommand "LDV" [d, w] (.ldv rd a false) ∧
    (rx ≠ .bin → SpellsCommand "PARSE" [d, x, w] (.parse rd rx a false)) ∧
    SpellsCommand "TRUNC" [d, w] (.trunc rd rd a) ∧ SpellsCommand "SAT" [d, w] (.sat rd rd a) ∧
    SpellsCommand "EXPAND" [d, w] (.expand rd rd a) ∧ SpellsCommand "SETW" [d, w] (.setw rd rd a) ∧
    SpellsCommand "REVB" [d, w] (.revb rd rd a) ∧ SpellsCommand "NOT" [d] (.not rd rd) ∧
    SpellsCommand "AND" [d, r] (.and rd rd rs) ∧ SpellsCommand "OR" [d, r] (.or rd rd rs) ∧
    SpellsCommand "XOR" [d, r] (.xor rd rd rs) ∧ SpellsCommand "ADD" [d, r] (.add rd rd rs) ∧
    SpellsCommand "SUB" [d, r] (.sub rd rd rs) ∧ SpellsCommand "FMT" [d] (.fmt rd .dec) ∧
    SpellsCommand "FMTF" [d, w, l] (.fmtf rd .dec a b)

/-- R90: the operands of every mnemonic fill the fields of the syntax table, in its order; and a line with a number of
operands that neither R90 nor R91 gives its mnemonic is an assembly error. -/
def Obligations.AssembledOperandsFillTheFields : Prop :=
  (∀ (d l r w v x u : List Char) (rd rs1 rs2 : VReg) (a b : Imm) (rx : Radix) (sg : Bool),
    asmReg d = some rd → asmReg l = some rs1 → asmReg r = some rs2 → asmImm w = some a → asmImm v = some b →
    asmRadix x = some rx → asmSign u = some sg →
    SpellsCommand "LDV" [d, w, u] (.ldv rd a sg) ∧
    (rx ≠ .bin → SpellsCommand "PARSE" [d, x, w, u] (.parse rd rx a sg)) ∧
    SpellsCommand "MOV" [d, l] (.mov rd rs1) ∧ SpellsCommand "RDMAG" [l] (.rdmag rs1) ∧
    SpellsCommand "RDWID" [l] (.rdwid rs1) ∧ SpellsCommand "RDSGN" [l] (.rdsgn rs1) ∧
    SpellsCommand "RDMAGW" [l, w] (.rdmagw rs1 a) ∧ SpellsCommand "TRUNC" [d, l, w] (.trunc rd rs1 a) ∧
    SpellsCommand "SAT" [d, l, w] (.sat rd rs1 a) ∧ SpellsCommand "EXPAND" [d, l, w] (.expand rd rs1 a) ∧
    SpellsCommand "SETW" [d, l, w] (.setw rd rs1 a) ∧ SpellsCommand "AND" [d, l, r] (.and rd rs1 rs2) ∧
    SpellsCommand "OR" [d, l, r] (.or rd rs1 rs2) ∧ SpellsCommand "XOR" [d, l, r] (.xor rd rs1 rs2) ∧
    SpellsCommand "ADD" [d, l, r] (.add rd rs1 rs2) ∧ SpellsCommand "SUB" [d, l, r] (.sub rd rs1 rs2) ∧
    SpellsCommand "NOT" [d, l] (.not rd rs1) ∧ SpellsCommand "SHL" [d, l, w] (.shl rd rs1 a) ∧
    SpellsCommand "SHR" [d, l, w] (.shr rd rs1 a) ∧ SpellsCommand "REVB" [d, l, w] (.revb rd rs1 a) ∧
    SpellsCommand "GETB" [l, w] (.getb rs1 a) ∧ SpellsCommand "CMP" [l, r] (.cmp rs1 rs2) ∧
    SpellsCommand "EQ" [l, r] (.eq rs1 rs2) ∧ SpellsCommand "NE" [l, r] (.ne rs1 rs2) ∧
    SpellsCommand "LT" [l, r] (.lt rs1 rs2) ∧ SpellsCommand "LE" [l, r] (.le rs1 rs2) ∧
    SpellsCommand "GT" [l, r] (.gt rs1 rs2) ∧ SpellsCommand "GE" [l, r] (.ge rs1 rs2) ∧
    SpellsCommand "FMT" [l, x] (.fmt rs1 rx) ∧ SpellsCommand "FMTF" [l, x, w, v] (.fmtf rs1 rx a b) ∧
    SpellsCommand "MASK" [w] (.mask a) ∧ SpellsCommand "MASKF" [v, w] (.maskf b a) ∧
    SpellsCommand "HEX2DEC" [] .hex2dec ∧ SpellsCommand "CLRST" [] .clrst) ∧
  ∀ (name : String) (counts : List Nat) (line : String), mnemonicWord line = name.toList →
    (counts = [0] ∧ name ∈ ["HEX2DEC", "CLRST"]) ∨
      (counts = [1] ∧ name ∈ ["RDMAG", "RDWID", "RDSGN", "MASK"]) ∨ (counts = [1, 2] ∧ name ∈ ["NOT", "FMT"]) ∨
      (counts = [2] ∧ name ∈ ["MOV", "RDMAGW", "GETB", "MASKF", "CMP", "EQ", "NE", "LT", "LE", "GT", "GE"]) ∨
      (counts = [2, 3] ∧ name ∈ ["TRUNC", "SAT", "EXPAND", "SETW", "REVB", "AND", "OR", "XOR", "ADD", "SUB"]) ∨
      (counts = [1, 2, 3] ∧ name = "LDV") ∨ (counts = [3] ∧ name ∈ ["SHL", "SHR"]) ∨
      (counts = [3, 4] ∧ name ∈ ["PARSE", "FMTF"]) →
    (operandTexts line).length ∉ counts → assemble line = none

/-- R90: registers, radices and signednesses read as what they are; an immediate in decimal, or in hexadecimal after `0x`,
reads as its number, and one that does not fit its 7-bit field is an assembly error. -/
def Obligations.OperandTextsAreRead : Prop :=
  (∀ t, (∀ k : VReg, asmReg t = some k ↔ t = ['v', Char.ofNat (0x30 + k.val)]) ∧
    (∀ rx, asmRadix t = some rx ↔
      (rx = .dec ∧ t = ['d']) ∨ (rx = .hex ∧ t = ['x']) ∨ (rx = .bin ∧ t = ['b'])) ∧
    ∀ sg, asmSign t = some sg ↔ (sg = false ∧ t = ['u']) ∨ (sg = true ∧ t = ['s'])) ∧
  ∀ (t : List Char) (n : Nat), (∀ c ∈ t, c.toNat < 128) →
    (ReadsDecimal (t.map fun c => BitVec.ofNat 8 c.toNat) n →
      asmImm t = if n < 128 then some (BitVec.ofNat 7 n) else none) ∧
    (ReadsHex (t.map fun c => BitVec.ofNat 8 c.toNat) n →
      asmImm ('0' :: 'x' :: t) = if n < 128 then some (BitVec.ofNat 7 n) else none)

/-- R90: a line is the mnemonic, in letters of either case, and then its operands separated by commas. Said of lines with
one space after the mnemonic and after each comma; blanks are the model's (notes/assumptions/14.md). -/
def Obligations.LinesAreCutAtTheCommas : Prop :=
  ∀ (line : String) (name : List Char) (ops : List (List Char)),
    name ≠ [] → (∀ c ∈ name, c ≠ ' ' ∧ c ≠ '\t') →
    (∀ t ∈ ops, t ≠ [] ∧ ∀ c ∈ t, c ≠ ' ' ∧ c ≠ '\t' ∧ c ≠ ',') →
    line.toList = name ++ ' ' :: [',', ' '].intercalate ops →
    mnemonicWord line = name.map upper ∧ operandTexts line = ops

/-- R79, R90: what the assembler accepts is a command, of the mnemonic the line begins with, and its word decodes to
it. -/
def Obligations.AssembledLinesAreCommands : Prop :=
  ∀ (line : String) (i : Instr), assemble line = some i →
    i.wellFormed = true ∧ decode (encode i) = .ok i ∧ mnemonicWord line = i.head.1.toList

/-! ## One step, and the host window (20_memory.md, 70_reset_and_hazards.md) -/

/-- R52: a host write of a word to CMD executes that word: out of reset, a step is `exec` of the decoded command in the
state with the later events still to come; a word that spells no command raises IllegalCommand. -/
def Obligations.StepRunsTheWrittenCommand : Prop :=
  ∀ (s : State) (data : BitVec 64) (rest : List HostEvent),
    s.inputs = .write 0x00 32 data :: rest → s.resetAsserted = false →
    (∀ i, decode (data.setWidth 32) = .ok i → step s = exec i (s.advance rest)) ∧
      (∀ e, decode (data.setWidth 32) = .error e →
        ∃ t, step s = .next t ∧ Fails .illegalCommand (s.advance rest) t)

/-- Notes/assumptions/1.md, from R25 and R34: with no event of the outside world the block does nothing. -/
def Obligations.IdleBlockDoesNothing : Prop :=
  ∀ s : State, s.inputs = [] → step s = .next s

/-- R51, R55: a host read returns the register and has no side effect: the state is otherwise as it was. The free values of
unwritten registers are notes/assumptions/2.md's, so this is said of written ones. -/
def Obligations.HostReadsReturnTheRegister : Prop :=
  ∀ (s : State) (offset bits : Nat) (rest : List HostEvent),
    s.inputs = .read offset bits :: rest → s.resetAsserted = false →
    ∀ x : BitVec 64,
      ((offset = 0x00 ∧ bits = 32 ∧ x = 0) ∨ (offset = 0x04 ∧ bits = 32 ∧ x = s.status.setWidth 64) ∨
        (offset = 0x08 ∧ bits = 64 ∧ s.dinContents = some x) ∨ (offset = 0x10 ∧ bits = 64 ∧ s.resContents = some x) ∨
        (offset = 0x18 ∧ bits = 32 ∧ x = s.tlen.setWidth 64) ∨
        (∃ k b, k < 64 ∧ offset = 0x40 + k ∧ bits = 8 ∧ s.txt.read k = some b ∧ x = b.setWidth 64)) →
      ∃ t, step s = .next t ∧ t.replies = x :: s.replies ∧ t.inputs = rest ∧ t.resetAsserted = false ∧ SameV s t ∧
        t.resContents = s.resContents ∧ t.dinContents = s.dinContents ∧ SameText s t ∧ t.status = s.status

/-- R51: a host write to DIN, TLEN or a byte of TXT changes that register alone; one to STATUS or RES is ignored. -/
def Obligations.HostWritesChangeTheRegister : Prop :=
  ∀ (s : State) (offset bits : Nat) (data : BitVec 64) (rest : List HostEvent),
    s.inputs = .write offset bits data :: rest → s.resetAsserted = false →
    ((offset = 0x04 ∧ bits = 32) ∨ (offset = 0x08 ∧ bits = 64) ∨ (offset = 0x10 ∧ bits = 64) ∨
      (offset = 0x18 ∧ bits = 32) ∨ (0x40 ≤ offset ∧ offset ≤ 0x7F ∧ bits = 8)) →
    ∃ t, step s = .next t ∧ t.inputs = rest ∧ t.replies = s.replies ∧ t.resetAsserted = false ∧ SameV s t ∧
      t.resContents = s.resContents ∧ t.status = s.status ∧
      t.dinContents = (if offset = 0x08 then some data else s.dinContents) ∧
      t.tlen = (if offset = 0x18 then data.setWidth 7 else s.tlen) ∧
      ∀ k, t.txt.read k = (if offset = 0x40 + k then some (data.setWidth 8) else s.txt.read k)

/-- R51, R54, R315: a host access at an offset where the map has no register, or of another size than the map's, stops the
model by name. -/
def Obligations.UndefinedAccessesStop : Prop :=
  ∀ (s : State) (offset bits : Nat) (rest : List HostEvent),
    ((s.inputs = .read offset bits :: rest) ∨ ∃ data, s.inputs = .write offset bits data :: rest) →
    s.resetAsserted = false →
    ((offset ≠ 0x00 ∧ offset ≠ 0x04 ∧ offset ≠ 0x08 ∧ offset ≠ 0x10 ∧ offset ≠ 0x18 ∧
        ¬(0x40 ≤ offset ∧ offset ≤ 0x7F)) → step s = .fault .undefinedOffset) ∧
      (((offset = 0x00 ∨ offset = 0x04 ∨ offset = 0x18) ∧ bits ≠ 32) ∨
          ((offset = 0x08 ∨ offset = 0x10) ∧ bits ≠ 64) ∨ ((0x40 ≤ offset ∧ offset ≤ 0x7F) ∧ bits ≠ 8) →
        step s = .fault .wrongAccessSize)

/-- R350: while reset is asserted a host access is refused, so no command executes; when it is released the state is that
of R35. -/
def Obligations.ResetInputHoldsAndReleases : Prop :=
  ∀ (s : State) (rest : List HostEvent), s.resetAsserted = true →
    (∀ offset bits, s.inputs = .read offset bits :: rest → step s = .refused .accessDuringReset) ∧
    (∀ offset bits data, s.inputs = .write offset bits data :: rest → step s = .refused .accessDuringReset) ∧
    (s.inputs = .resetInput false :: rest →
      ∃ t, step s = .next t ∧ t.resetAsserted = false ∧ t.inputs = rest ∧ t.replies = s.replies ∧
        (∀ r : VReg, t.contents r = none) ∧ t.resContents = none ∧ t.dinContents = none ∧ t.tlen = 0 ∧
        (∀ k, t.txt.read k = none) ∧ t.code = 0 ∧ t.sticky = false ∧ t.status = 0)

/-- R35: after reset TLEN and STATUS are 0 and everything else is unwritten. -/
def Obligations.ResetLeavesTlenAndStatusZero : Prop :=
  State.reset.tlen = 0 ∧ State.reset.code = 0 ∧ State.reset.sticky = false ∧ State.reset.status = 0 ∧
    (∀ r : VReg, State.reset.contents r = none) ∧ State.reset.resContents = none ∧ State.reset.dinContents = none ∧
    ∀ k, State.reset.txt.read k = none

/-- R58: an access sees the effect of the access before it: DIN and a byte of TXT read back as written. -/
def Obligations.NextAccessSeesTheWrite : Prop :=
  ∀ (s : State) (rest : List HostEvent) (data : BitVec 64) (k : Nat), s.resetAsserted = false →
    (s.inputs = .write 0x08 64 data :: .read 0x08 64 :: rest →
      ∃ t u, step s = .next t ∧ step t = .next u ∧ u.replies = data :: s.replies ∧ u.inputs = rest) ∧
    (k < 64 → s.inputs = .write (0x40 + k) 8 data :: .read (0x40 + k) 8 :: rest →
      ∃ t u, step s = .next t ∧ step t = .next u ∧ u.replies = (data.setWidth 8).setWidth 64 :: s.replies ∧
        u.inputs = rest)

/-! ## Mask functions and mask commands (41_mask_width.md) -/

/-- R130, R131: the values of the two mask functions, for every argument: the width is clamped to [1,64], the lsb to 63,
and the field ends at bit 63 at the latest. -/
def Obligations.MaskFunctionValues : Prop :=
  (∀ w : Nat, (mask w).toNat = 2 ^ min (max w 1) 64 - 1) ∧
    ∀ lsb w : Nat, (fieldmask lsb w).toNat =
      2 ^ (min lsb 63 + min (min (max w 1) 64) (64 - min lsb 63)) - 2 ^ min lsb 63

/-- R139: the laws of the mask functions. -/
def Obligations.MaskFunctionLaws : Prop :=
  (∀ w, 1 ≤ w → w ≤ 64 → ∀ i, (mask w).getLsbD i = decide (i < w)) ∧
    (∀ w, fieldmask 0 w = mask w) ∧
    (∀ lsb w, 1 ≤ w → lsb + w ≤ 64 → ∀ i, (fieldmask lsb w).getLsbD i = decide (lsb ≤ i ∧ i < lsb + w)) ∧
    ∀ l1 w1 l2 w2, 1 ≤ w1 → 1 ≤ w2 → l1 + w1 ≤ l2 → l2 + w2 ≤ 64 → fieldmask l1 w1 &&& fieldmask l2 w2 = 0

/-- R132, R134: MASK and MASKF complete with the mask in RES, for every argument. -/
def Obligations.MaskCommandsReturnMasks : Prop :=
  ∀ (a b : Imm) (s : State),
    Encoded 0x30 .im (.mask a) ∧ Encoded 0x31 .im2 (.maskf b a) ∧
    (∃ t, exec (.mask a) s = .next t ∧ WritesRes (BitVec.ofNat 64 (2 ^ min (max a.toNat 1) 64 - 1)) s t) ∧
    ∃ t, exec (.maskf b a) s = .next t ∧
      WritesRes (BitVec.ofNat 64 (2 ^ (min b.toNat 63 + min (min (max a.toNat 1) 64) (64 - min b.toNat 63)) -
        2 ^ min b.toNat 63)) s t

/-! ## Construction, copy, accessors, status control (40_construct_access.md) -/

/-- R100: LDV stores DIN whole at the given width and signedness; a width outside [1,64] is OutOfRange. -/
def Obligations.LdvConstructsFromDin : Prop :=
  ∀ (rd : VReg) (a : Imm) (sg : Bool) (s : State),
    Encoded 0x01 .ld (.ldv rd a sg) ∧
    (1 ≤ a.toNat ∧ a.toNat ≤ 64 → ∃ t, exec (.ldv rd a sg) s = .next t ∧ WritesV rd ⟨s.readDin, a, sg⟩ s t) ∧
    (¬(1 ≤ a.toNat ∧ a.toNat ≤ 64) → ∃ t, exec (.ldv rd a sg) s = .next t ∧ Fails .outOfRange s t)

/-- R101: MOV copies all three fields, bits above the width included. -/
def Obligations.MovCopiesTheValue : Prop :=
  ∀ (rd rs1 : VReg) (s : State),
    Encoded 0x03 .r2 (.mov rd rs1) ∧ ∃ t, exec (.mov rd rs1) s = .next t ∧ WritesV rd (s.left rs1) s t

/-- R102 to R105: the accessors return the raw magnitude, the magnitude at a (clamped) width, the width and the signed
flag. -/
def Obligations.AccessorsReturnTheFields : Prop :=
  ∀ (rs1 : VReg) (a : Imm) (s : State),
    (Encoded 0x04 .s1 (.rdmag rs1) ∧ Encoded 0x05 .si (.rdmagw rs1 a) ∧ Encoded 0x06 .s1 (.rdwid rs1) ∧
      Encoded 0x07 .s1 (.rdsgn rs1)) ∧
    (∃ t, exec (.rdmag rs1) s = .next t ∧ WritesRes (s.left rs1).mag s t) ∧
    (∃ t, exec (.rdmagw rs1 a) s = .next t ∧
      WritesRes (BitVec.ofNat 64 ((s.left rs1).mag.toNat % 2 ^ min (max a.toNat 1) 64)) s t) ∧
    (∃ t, exec (.rdwid rs1) s = .next t ∧ WritesRes (BitVec.ofNat 64 (s.left rs1).w.toNat) s t) ∧
    (∃ t, exec (.rdsgn rs1) s = .next t ∧ WritesRes (if (s.left rs1).s = true then 1 else 0) s t)

/-- R110: CLRST leaves STATUS all zeros and everything else as it was; its word is 0xFC000000. -/
def Obligations.ClrstClearsStatus : Prop :=
  ∀ s : State, Encoded 0x3F .n .clrst ∧ encode .clrst = 0xFC000000 ∧
    ∃ t, exec .clrst s = .next t ∧ t.status = 0 ∧ SameButStatus s t

/-! ## Width conversion (41_mask_width.md) -/

/-- R133: the width argument is checked before anything else. -/
def Obligations.WidthIsCheckedFirst : Prop :=
  ∀ (rd rs1 : VReg) (a : Imm) (s : State), ¬(1 ≤ a.toNat ∧ a.toNat ≤ 64) →
    (∃ t, exec (.trunc rd rs1 a) s = .next t ∧ Fails .outOfRange s t) ∧
    (∃ t, exec (.sat rd rs1 a) s = .next t ∧ Fails .outOfRange s t) ∧
    (∃ t, exec (.expand rd rs1 a) s = .next t ∧ Fails .outOfRange s t) ∧
    (∃ t, exec (.setw rd rs1 a) s = .next t ∧ Fails .outOfRange s t)

/-- R135: TRUNC keeps the magnitude modulo 2^a, signed or not. -/
def Obligations.TruncDropsHighBits : Prop :=
  ∀ (rd rs1 : VReg) (a : Imm) (s : State),
    Encoded 0x08 .ri (.trunc rd rs1 a) ∧
    (1 ≤ a.toNat ∧ a.toNat ≤ 64 → ∃ t, exec (.trunc rd rs1 a) s = .next t ∧
      WritesV rd ⟨BitVec.ofNat 64 ((s.left rs1).mag.toNat % 2 ^ a.toNat), a, (s.left rs1).s⟩ s t) ∧
    (¬(1 ≤ a.toNat ∧ a.toNat ≤ 64) → ∃ t, exec (.trunc rd rs1 a) s = .next t ∧ Fails .outOfRange s t)

/-- R136: SAT clamps the raw magnitude of an unsigned operand to 2^a - 1; a signed operand is Unsupported. -/
def Obligations.SatClampsToTheMaximum : Prop :=
  ∀ (rd rs1 : VReg) (a : Imm) (s : State),
    Encoded 0x09 .ri (.sat rd rs1 a) ∧
    (1 ≤ a.toNat ∧ a.toNat ≤ 64 → (s.left rs1).s = false → ∃ t, exec (.sat rd rs1 a) s = .next t ∧
      WritesV rd ⟨BitVec.ofNat 64 (min (s.left rs1).mag.toNat (2 ^ a.toNat - 1)), a, false⟩ s t) ∧
    (1 ≤ a.toNat ∧ a.toNat ≤ 64 → (s.left rs1).s = true →
      ∃ t, exec (.sat rd rs1 a) s = .next t ∧ Fails .unsupported s t) ∧
    (¬(1 ≤ a.toNat ∧ a.toNat ≤ 64) → ∃ t, exec (.sat rd rs1 a) s = .next t ∧ Fails .outOfRange s t)

/-- R137: EXPAND keeps the value seen through the old width; a width outside [1,64] or below the old one is OutOfRange,
and only then is a signed operand Unsupported. -/
def Obligations.ExpandKeepsTheValue : Prop :=
  ∀ (rd rs1 : VReg) (a : Imm) (s : State), s.WidthsLegal →
    Encoded 0x0A .ri (.expand rd rs1 a) ∧
    ((s.left rs1).w.toNat ≤ a.toNat ∧ a.toNat ≤ 64 → (s.left rs1).s = false →
      ∃ t, exec (.expand rd rs1 a) s = .next t ∧
        WritesV rd ⟨BitVec.ofNat 64 ((s.left rs1).mag.toNat % 2 ^ (s.left rs1).w.toNat), a, false⟩ s t) ∧
    ((s.left rs1).w.toNat ≤ a.toNat ∧ a.toNat ≤ 64 → (s.left rs1).s = true →
      ∃ t, exec (.expand rd rs1 a) s = .next t ∧ Fails .unsupported s t) ∧
    (¬((s.left rs1).w.toNat ≤ a.toNat ∧ a.toNat ≤ 64) →
      ∃ t, exec (.expand rd rs1 a) s = .next t ∧ Fails .outOfRange s t)

/-- R138: SETW expands when the width grows and saturates when it shrinks or stays equal. -/
def Obligations.SetwExpandsOrSaturates : Prop :=
  ∀ (rd rs1 : VReg) (a : Imm) (s : State), s.WidthsLegal →
    Encoded 0x0B .ri (.setw rd rs1 a) ∧
    ((s.left rs1).w.toNat < a.toNat ∧ a.toNat ≤ 64 → (s.left rs1).s = false →
      ∃ t, exec (.setw rd rs1 a) s = .next t ∧
        WritesV rd ⟨BitVec.ofNat 64 ((s.left rs1).mag.toNat % 2 ^ (s.left rs1).w.toNat), a, false⟩ s t) ∧
    (1 ≤ a.toNat ∧ a.toNat ≤ (s.left rs1).w.toNat → (s.left rs1).s = false →
      ∃ t, exec (.setw rd rs1 a) s = .next t ∧
        WritesV rd ⟨BitVec.ofNat 64 (min (s.left rs1).mag.toNat (2 ^ a.toNat - 1)), a, false⟩ s t) ∧
    (1 ≤ a.toNat ∧ a.toNat ≤ 64 → (s.left rs1).s = true →
      ∃ t, exec (.setw rd rs1 a) s = .next t ∧ Fails .unsupported s t) ∧
    (¬(1 ≤ a.toNat ∧ a.toNat ≤ 64) → ∃ t, exec (.setw rd rs1 a) s = .next t ∧ Fails .outOfRange s t)

/-! ## Bitwise operations, shifts, bit toggle and bit read (42_bitwise_arith.md) -/

/-- R161 to R164: AND, OR and XOR combine bit by bit below the left width, the right operand seen through its own width;
a narrower signed right operand is Unsupported. -/
def Obligations.BitwiseCombinesBelowTheLeftWidth : Prop :=
  ∀ (rd rs1 rs2 : VReg) (s : State), s.WidthsLegal →
    (Encoded 0x10 .r3 (.and rd rs1 rs2) ∧ Encoded 0x11 .r3 (.or rd rs1 rs2) ∧ Encoded 0x12 .r3 (.xor rd rs1 rs2)) ∧
    ∀ (i : Instr) (f : Bool → Bool → Bool),
      (i = .and rd rs1 rs2 ∧ f = Bool.and) ∨ (i = .or rd rs1 rs2 ∧ f = Bool.or) ∨ (i = .xor rd rs1 rs2 ∧ f = Bool.xor) →
      ((s.right rs2).w.toNat < (s.left rs1).w.toNat ∧ (s.right rs2).s = true →
        ∃ t, exec i s = .next t ∧ Fails .unsupported s t) ∧
      (¬((s.right rs2).w.toNat < (s.left rs1).w.toNat ∧ (s.right rs2).s = true) →
        ∃ m t, exec i s = .next t ∧ WritesV rd ⟨m, (s.left rs1).w, (s.left rs1).s⟩ s t ∧
          ∀ k, m.getLsbD k = (decide (k < (s.left rs1).w.toNat) &&
            f ((s.left rs1).mag.getLsbD k) ((s.right rs2).mag.getLsbD k && decide (k < (s.right rs2).w.toNat))))

/-- R165: NOT complements the bits below the width and clears the rest. -/
def Obligations.NotComplementsBelowTheWidth : Prop :=
  ∀ (rd rs1 : VReg) (s : State), s.WidthsLegal →
    Encoded 0x13 .r2 (.not rd rs1) ∧
    ∃ m t, exec (.not rd rs1) s = .next t ∧ WritesV rd ⟨m, (s.left rs1).w, (s.left rs1).s⟩ s t ∧
      ∀ k, m.getLsbD k = (decide (k < (s.left rs1).w.toNat) && !(s.left rs1).mag.getLsbD k)

/-- R166, R167: SHL multiplies and SHR divides the raw magnitude by 2^a, modulo 2^w, for every amount 0..127. -/
def Obligations.ShiftsMultiplyAndDivide : Prop :=
  ∀ (rd rs1 : VReg) (a : Imm) (s : State), s.WidthsLegal →
    Encoded 0x14 .ri (.shl rd rs1 a) ∧ Encoded 0x15 .ri (.shr rd rs1 a) ∧
    (∃ t, exec (.shl rd rs1 a) s = .next t ∧
      WritesV rd ⟨BitVec.ofNat 64 ((s.left rs1).mag.toNat * 2 ^ a.toNat % 2 ^ (s.left rs1).w.toNat),
        (s.left rs1).w, (s.left rs1).s⟩ s t) ∧
    (∃ t, exec (.shr rd rs1 a) s = .next t ∧
      WritesV rd ⟨BitVec.ofNat 64 ((s.left rs1).mag.toNat / 2 ^ a.toNat % 2 ^ (s.left rs1).w.toNat),
        (s.left rs1).w, (s.left rs1).s⟩ s t)

/-- R168: REVB toggles bit a below the width and masks; at or beyond the width it leaves the value as it was. -/
def Obligations.RevbTogglesOneBit : Prop :=
  ∀ (rd rs1 : VReg) (a : Imm) (s : State), s.WidthsLegal →
    Encoded 0x16 .ri (.revb rd rs1 a) ∧
    ((s.left rs1).w.toNat ≤ a.toNat → ∃ t, exec (.revb rd rs1 a) s = .next t ∧ WritesV rd (s.left rs1) s t) ∧
    (a.toNat < (s.left rs1).w.toNat →
      ∃ m t, exec (.revb rd rs1 a) s = .next t ∧ WritesV rd ⟨m, (s.left rs1).w, (s.left rs1).s⟩ s t ∧
        ∀ k, m.getLsbD k = (decide (k < (s.left rs1).w.toNat) &&
          Bool.xor ((s.left rs1).mag.getLsbD k) (decide (k = a.toNat))))

/-- R169: GETB returns the character at string position a, which is bit w-1-a; an index at or beyond the width is
OutOfRange. -/
def Obligations.GetbReadsTheStringPosition : Prop :=
  ∀ (rs1 : VReg) (a : Imm) (s : State), s.WidthsLegal →
    Encoded 0x17 .si (.getb rs1 a) ∧
    (a.toNat < (s.left rs1).w.toNat → ∃ t, exec (.getb rs1 a) s = .next t ∧
      WritesRes (if (s.left rs1).mag.getLsbD ((s.left rs1).w.toNat - 1 - a.toNat) = true then 0x31 else 0x30) s t) ∧
    ((s.left rs1).w.toNat ≤ a.toNat → ∃ t, exec (.getb rs1 a) s = .next t ∧ Fails .outOfRange s t)

/-- WC's property Q6 of 95_test_vectors.md, from R168: two toggles of one position below the width give back a value that
has no bits above its width. -/
def Obligations.TogglingTwiceGivesTheValueBack : Prop :=
  ∀ (r : VReg) (a : Imm) (s : State) (x : Value), s.WidthsLegal → s.contents r = some x → x.Masked →
    a.toNat < x.w.toNat →
    ∃ t u, exec (.revb r r a) s = .next t ∧ exec (.revb r r a) t = .next u ∧ WritesV r x s u

/-! ## Arithmetic and comparison (42_bitwise_arith.md) -/

/-- R170, R171: ADD and SUB of raw magnitudes, modulo 2 to the left operand's width, at that width and signedness. -/
def Obligations.AddAndSubWrapAtTheLeftWidth : Prop :=
  ∀ (rd rs1 rs2 : VReg) (s : State), s.WidthsLegal →
    Encoded 0x18 .r3 (.add rd rs1 rs2) ∧ Encoded 0x19 .r3 (.sub rd rs1 rs2) ∧
    (∃ t, exec (.add rd rs1 rs2) s = .next t ∧
      WritesV rd ⟨BitVec.ofNat 64 (((s.left rs1).mag.toNat + (s.right rs2).mag.toNat) % 2 ^ (s.left rs1).w.toNat),
        (s.left rs1).w, (s.left rs1).s⟩ s t) ∧
    (∃ t, exec (.sub rd rs1 rs2) s = .next t ∧
      WritesV rd ⟨BitVec.ofInt 64
          ((((s.left rs1).mag.toNat : Int) - ((s.right rs2).mag.toNat : Int)) % 2 ^ (s.left rs1).w.toNat),
        (s.left rs1).w, (s.left rs1).s⟩ s t)

/-- R173, R174: CMP returns -1, 0 or +1 by the raw magnitudes as unsigned numbers. -/
def Obligations.CmpOrdersRawMagnitudes : Prop :=
  ∀ (rs1 rs2 : VReg) (s : State),
    Encoded 0x20 .c2 (.cmp rs1 rs2) ∧
    ∃ t, exec (.cmp rs1 rs2) s = .next t ∧
      WritesRes (if (s.left rs1).mag.toNat < (s.right rs2).mag.toNat then 0xFFFFFFFFFFFFFFFF
        else if (s.left rs1).mag.toNat = (s.right rs2).mag.toNat then 0 else 1) s t

/-- R175 to R180: the relational commands return 1 or 0 by the raw magnitudes. -/
def Obligations.RelationsAgreeWithTheOrder : Prop :=
  ∀ (rs1 rs2 : VReg) (s : State),
    (Encoded 0x21 .c2 (.eq rs1 rs2) ∧ Encoded 0x22 .c2 (.ne rs1 rs2) ∧ Encoded 0x23 .c2 (.lt rs1 rs2) ∧
      Encoded 0x24 .c2 (.le rs1 rs2) ∧ Encoded 0x25 .c2 (.gt rs1 rs2) ∧ Encoded 0x26 .c2 (.ge rs1 rs2)) ∧
    ∀ x y : Nat, x = (s.left rs1).mag.toNat → y = (s.right rs2).mag.toNat →
      (∃ t, exec (.eq rs1 rs2) s = .next t ∧ WritesRes (if x = y then 1 else 0) s t) ∧
      (∃ t, exec (.ne rs1 rs2) s = .next t ∧ WritesRes (if x ≠ y then 1 else 0) s t) ∧
      (∃ t, exec (.lt rs1 rs2) s = .next t ∧ WritesRes (if x < y then 1 else 0) s t) ∧
      (∃ t, exec (.le rs1 rs2) s = .next t ∧ WritesRes (if x ≤ y then 1 else 0) s t) ∧
      (∃ t, exec (.gt rs1 rs2) s = .next t ∧ WritesRes (if x > y then 1 else 0) s t) ∧
      (∃ t, exec (.ge rs1 rs2) s = .next t ∧ WritesRes (if x ≥ y then 1 else 0) s t)

/-! ## Formatting and parsing (43_radix.md) -/

/-- R211 to R215, R217 (R215 is the spec's own derivation): FMT delivers the text of the value at its width: the unpadded
decimal numeral, exactly ceil(w/4) upper-case hexadecimal digits, or exactly w binary digits, with all 64 bytes and TLEN
written. -/
def Obligations.FmtDeliversTheText : Prop :=
  ∀ (rs1 : VReg) (rx : Radix) (s : State), s.WidthsLegal →
    Encoded 0x28 .fm (.fmt rs1 rx) ∧
    ∃ str t, exec (.fmt rs1 rx) s = .next t ∧ WritesText str s t ∧
      TextOf str ((s.left rs1).mag.toNat % 2 ^ (s.left rs1).w.toNat) (s.left rs1).w.toNat rx

/-- R216, with the texts of R211, R213 to R215 and R217 (R215 is the spec's own derivation): FMTF delivers the text of the
bit field [a, b] at its own width; an msb at or beyond the width, or an lsb above the msb, is OutOfRange. -/
def Obligations.FmtfDeliversTheFieldText : Prop :=
  ∀ (rs1 : VReg) (rx : Radix) (a b : Imm) (s : State), s.WidthsLegal →
    Encoded 0x29 .ff (.fmtf rs1 rx a b) ∧
    (a.toNat < (s.left rs1).w.toNat ∧ b.toNat ≤ a.toNat →
      ∃ str t, exec (.fmtf rs1 rx a b) s = .next t ∧ WritesText str s t ∧
        TextOf str ((s.left rs1).mag.toNat / 2 ^ b.toNat % 2 ^ (a.toNat - b.toNat + 1)) (a.toNat - b.toNat + 1) rx) ∧
    (¬(a.toNat < (s.left rs1).w.toNat ∧ b.toNat ≤ a.toNat) →
      ∃ t, exec (.fmtf rs1 rx a b) s = .next t ∧ Fails .outOfRange s t)

/-- R216's corner case: FMTF of the full range is FMT. -/
def Obligations.FullRangeFmtfIsFmt : Prop :=
  ∀ (rs1 : VReg) (rx : Radix) (a : Imm) (s : State), s.WidthsLegal → a.toNat + 1 = (s.left rs1).w.toNat →
    exec (.fmtf rs1 rx a 0) s = exec (.fmt rs1 rx) s

/-- R222 with R220: PARSE of decimal text constructs its value, unmasked, at the given width; malformed text (empty, a
character that is no digit, a value above 2^64-1) is InvalidArgument, after the width and TLEN are checked. -/
def Obligations.ParseConstructsFromDecimalText : Prop :=
  ∀ (rd : VReg) (a : Imm) (sg : Bool) (s : State),
    Encoded 0x02 .pr (.parse rd .dec a sg) ∧
    (1 ≤ a.toNat ∧ a.toNat ≤ 64 → s.tlen.toNat ≤ 64 →
      (∀ n, ReadsDecimal s.text n → n < 2 ^ 64 →
        ∃ t, exec (.parse rd .dec a sg) s = .next t ∧ WritesV rd ⟨BitVec.ofNat 64 n, a, sg⟩ s t) ∧
      ((∀ n, ReadsDecimal s.text n → 2 ^ 64 ≤ n) →
        ∃ t, exec (.parse rd .dec a sg) s = .next t ∧ Fails .invalidArgument s t)) ∧
    (¬(1 ≤ a.toNat ∧ a.toNat ≤ 64) ∨ 64 < s.tlen.toNat →
      ∃ t, exec (.parse rd .dec a sg) s = .next t ∧ Fails .outOfRange s t)

/-- R222 with R221: PARSE of hexadecimal text constructs its value, unmasked, at the given width; malformed text is
Unsupported, after the width and TLEN are checked. -/
def Obligations.ParseConstructsFromHexText : Prop :=
  ∀ (rd : VReg) (a : Imm) (sg : Bool) (s : State),
    Encoded 0x02 .pr (.parse rd .hex a sg) ∧
    (1 ≤ a.toNat ∧ a.toNat ≤ 64 → s.tlen.toNat ≤ 64 →
      (∀ n, ReadsHex s.text n → n < 2 ^ 64 →
        ∃ t, exec (.parse rd .hex a sg) s = .next t ∧ WritesV rd ⟨BitVec.ofNat 64 n, a, sg⟩ s t) ∧
      ((∀ n, ReadsHex s.text n → 2 ^ 64 ≤ n) →
        ∃ t, exec (.parse rd .hex a sg) s = .next t ∧ Fails .unsupported s t)) ∧
    (¬(1 ≤ a.toNat ∧ a.toNat ≤ 64) ∨ 64 < s.tlen.toNat →
      ∃ t, exec (.parse rd .hex a sg) s = .next t ∧ Fails .outOfRange s t)

/-- R223: HEX2DEC returns the value of hexadecimal text in RES; its word is 0xC8000000. -/
def Obligations.Hex2decReturnsTheNumber : Prop :=
  ∀ s : State, Encoded 0x32 .n .hex2dec ∧ encode .hex2dec = 0xC8000000 ∧
    (s.tlen.toNat ≤ 64 →
      (∀ n, ReadsHex s.text n → n < 2 ^ 64 →
        ∃ t, exec .hex2dec s = .next t ∧ WritesRes (BitVec.ofNat 64 n) s t) ∧
      ((∀ n, ReadsHex s.text n → 2 ^ 64 ≤ n) → ∃ t, exec .hex2dec s = .next t ∧ Fails .unsupported s t)) ∧
    (64 < s.tlen.toNat → ∃ t, exec .hex2dec s = .next t ∧ Fails .outOfRange s t)

/-- R224: hexadecimal text of exactly ceil(w/4) digits and a value below 2^w, parsed at width w and formatted again,
comes back with a..f changed to A..F. -/
def Obligations.HexTextRoundTrips : Prop :=
  ∀ (rd : VReg) (a : Imm) (s : State) (n : Nat), 1 ≤ a.toNat ∧ a.toNat ≤ 64 →
    s.tlen.toNat = (a.toNat + 3) / 4 → ReadsHex s.text n → n < 2 ^ a.toNat →
    ∃ t u, exec (.parse rd .hex a false) s = .next t ∧ exec (.fmt rd .hex) t = .next u ∧ u.tlen = s.tlen ∧
      ∀ k, k < s.tlen.toNat → u.txt.read k =
        some (if 0x61 ≤ (s.readTxt k).toNat ∧ (s.readTxt k).toNat ≤ 0x66 then s.readTxt k - 0x20 else s.readTxt k)

/-- From R213, R214, R220 and R221: parsing what was rendered gives the number back, in decimal and in hexadecimal. -/
def Obligations.ParsingARenderingGivesTheNumber : Prop :=
  ∀ v : Mag, parseDec (dec v) = .ok v ∧ ∀ fw, 1 ≤ fw → fw ≤ 64 → v.toNat < 2 ^ fw → hex2Dec (hex v fw) = .ok v

/-! ## The whole machine -/

/-- Every command, and every word written to CMD, ends in a next state: an error is an ordinary outcome that does not stop
the block (R305, R315). That no command stops on a read of unwritten state either is the model's choice of
RESET_UNSPEC_POLICY = any (notes/assumptions/2.md): R315 keeps a fault for such a read under the other policy. -/
def Obligations.EveryWordEndsInANextState : Prop :=
  ∀ (w : Word) (s : State), ∃ t, runCommand w s = .next t

/-- R303, R301: a command that ends in error changes nothing but STATUS. -/
def Obligations.ErrorsArePrecise : Prop :=
  ∀ (w : Word) (s t : State), runCommand w s = .next t → t.code ≠ 0 → t = s.setStatus t.status

/-- R302, R300, R27: every command ends by writing CODE, one of 0 to 4; an error sets STICKY, a completion keeps it, and
CLRST alone clears it. -/
def Obligations.EveryCommandReportsInStatus : Prop :=
  ∀ (w : Word) (s t : State), runCommand w s = .next t →
    t.code.toNat ≤ 4 ∧ t.status.extractLsb' 4 28 = 0 ∧ (t.code ≠ 0 → t.sticky = true) ∧
    (t.code = 0 → t.sticky = if decode w = .ok .clrst then false else s.sticky)

/-- R305: a command does the same whatever STATUS holds. -/
def Obligations.StatusSteersNoCommand : Prop :=
  ∀ (w : Word) (s : State) (x : Word), ∃ t t',
    runCommand w s = .next t ∧ runCommand w (s.setStatus x) = .next t' ∧ t'.code = t.code ∧
      t'.setStatus 0 = t.setStatus 0

/-- R33, R28, R29, R63: a command writes no value register but its destination, RES only if it returns a scalar, TXT and
TLEN only if it delivers a text, and never DIN; a source register is as it was unless it is the destination. -/
def Obligations.CommandsWriteOnlyTheirTarget : Prop :=
  ∀ (i : Instr) (s t : State), exec i s = .next t →
    t.dinContents = s.dinContents ∧ SamePort s t ∧ (∀ r : VReg, i.target ≠ .v r → t.contents r = s.contents r) ∧
      (i.target ≠ .res → t.resContents = s.resContents) ∧ (i.target ≠ .text → SameText s t)

/-- R24: the signed flags steer SAT, EXPAND, SETW, AND, OR and XOR and nothing else (RDSGN returns one): on two states
alike but for signed flags, every other command leaves two states alike but for signed flags. -/
def Obligations.SignedFlagsSteerOnlyTheNamedCommands : Prop :=
  ∀ (i : Instr) (s s' t t' : State), i.readsSign = false → SameButSigns s s' → exec i s = .next t →
    exec i s' = .next t' → SameButSigns t t'

/-- R23: what a computing command writes has no bit at or above its width, and so has a REVB that toggles. -/
def Obligations.ComputedMagnitudesFitTheirWidth : Prop :=
  ∀ (s t : State), s.WidthsLegal →
    (∀ (i : Instr) (rd : VReg), i.computes = true → i.target = .v rd → exec i s = .next t → t.code = 0 →
      ∃ x, t.contents rd = some x ∧ x.Masked) ∧
    ∀ (rd rs1 : VReg) (a : Imm), a.toNat < (s.left rs1).w.toNat → exec (.revb rd rs1 a) s = .next t →
      ∃ x, t.contents rd = some x ∧ x.Masked

/-- R22, R27, R31: a step keeps the invariant: legal widths, the text buffer in canonical form, a legal STATUS. -/
def Obligations.StepKeepsTheInvariant : Prop :=
  ∀ s t : State, s.Inv → step s = .next t → t.Inv

/-- The invariant holds after reset. -/
def Obligations.ResetMeetsTheInvariant : Prop := State.reset.Inv

/-- R351, R352: what an unwritten register is stored with never matters: two states no read can tell apart take the same
outcome, and their next states are again such. So no run depends on the values notes/assumptions/4.md chose. -/
def Obligations.UnwrittenContentsNeverMatter : Prop :=
  ∀ s s' : State, SameReads s s' →
    (∀ t, step s = .next t → ∃ t', step s' = .next t' ∧ SameReads t t') ∧
    (∀ f, step s = .fault f → step s' = .fault f) ∧ ∀ r, step s = .refused r → step s' = .refused r

/-- R352 (policy any, notes/assumptions/2.md): each read of an unwritten register or byte takes a draw of its own: no two
reads of one step share one, and no two steps do. -/
def Obligations.EachUnwrittenReadHasItsOwnDraw : Prop :=
  (∀ (s s' : State) (p q : Nat), p < 128 → q < 128 → s.draw p = s'.draw q → s.tick = s'.tick ∧ p = q) ∧
    (∀ (s : State) (r : VReg), s.contents r = none →
      s.left r = freeValue (s.draw 0) ∧ s.right r = freeValue (s.draw 1)) ∧
    (∀ s : State, s.dinContents = none → s.readDin = Config.freeWord (s.draw 2)) ∧
    (∀ s : State, s.resContents = none → s.readRes = Config.freeWord (s.draw 3)) ∧
    (∀ (s : State) (k : Nat), s.txt.read k = none → s.readTxt k = Config.freeByte (s.draw (64 + k))) ∧
    (∀ s t : State, s.inputs ≠ [] → step s = .next t → t.tick = s.tick + 1)
end

