-- ==== Sys2Proof/Laws/Assembler.lean ====
section
/-! SUPPORT. How a line is assembled: from its mnemonic's row of `asmForms`, and its operands cut at the commas. -/

namespace Sys2Proof.Machine

/-- A line is assembled from its mnemonic and its operands alone. -/
theorem assemble_of_spells (line name : String) (ops : List (List Char)) (h : Spells line name ops) :
    assemble line = assembleWords name.toList ops := by
  unfold assemble
  rw [h.1, h.2]

/-- The row of a mnemonic decides what its operands spell. -/
theorem assembleWords_row (name : String) (form : List (List Char) → Option Instr) (ops : List (List Char))
    (h : asmForms.find? (fun f => f.1.toList == name.toList) = some (name, form)) :
    assembleWords name.toList ops = form ops := by
  simp only [assembleWords, h]

theorem spellsCommand_of_words (name : String) (ops : List (List Char)) (i : Instr)
    (h : assembleWords name.toList ops = some i) : SpellsCommand name ops i :=
  fun line hl => (assemble_of_spells line name ops hl).trans h

theorem expands_of_words (name : String) (short full : List (List Char))
    (h : assembleWords name.toList short = assembleWords name.toList full) : Expands name short full :=
  fun line line' hl hl' =>
    (assemble_of_spells line name short hl).trans (h.trans (assemble_of_spells line' name full hl').symm)

/-- A word without blanks keeps all its characters. -/
theorem trimBlanks_word (t : List Char) (h : ∀ c ∈ t, blankChar c = false) : trimBlanks t = t := by
  have keep : ∀ l : List Char, (∀ c ∈ l, blankChar c = false) → l.dropWhile blankChar = l := fun l hl => by
    cases l with
    | nil => rfl
    | cons c l => rw [List.dropWhile_cons_of_neg (by simp [hl c])]
  rw [trimBlanks, keep _ h, keep _ (by simpa using h), List.reverse_reverse]

/-- Up to the next comma, cutting gathers the characters into the piece. -/
theorem splitCommas_append (t rest piece : List Char) (h : ∀ c ∈ t, c ≠ ',') :
    splitCommas piece (t ++ rest) = splitCommas (t.reverse ++ piece) rest := by
  induction t generalizing piece with
  | nil => rfl
  | cons c t ih =>
    simp only [List.cons_append, splitCommas]
    rw [if_neg (by simpa using h c (by simp)), ih _ fun c hc => h c (by simp [hc])]
    simp

end Sys2Proof.Machine
end

