-- ==== Sys2Proof/Laws/Memory.lean ====
section
/-! SUPPORT. The laws of the text buffer: a read after a write, and the canonical form. -/

namespace Sys2Proof.Machine

theorem Memory.read_write_same (m : Memory) (a : Nat) (b : Byte) : (m.write a b).read a = some b := by
  induction m with
  | nil => simp [Memory.write, Memory.read]
  | cons c rest ih =>
    obtain ⟨k, d⟩ := c
    simp only [Memory.write]
    split
    · simp [Memory.read]
    · split
      · simp [Memory.read]
      · rename_i hne
        simp [Memory.read, hne, ih]

theorem Memory.read_write_other (m : Memory) (a k : Nat) (b : Byte) (h : k ≠ a) :
    (m.write a b).read k = m.read k := by
  induction m with
  | nil => simp [Memory.write, Memory.read, Ne.symm h]
  | cons c rest ih =>
    obtain ⟨j, d⟩ := c
    simp only [Memory.write]
    split
    · simp [Memory.read, Ne.symm h]
    · split
      · rename_i hj
        subst hj
        simp [Memory.read, Ne.symm h]
      · simp [Memory.read, ih]

/-- Every cell of a written buffer is the new one or an old one. -/
theorem Memory.mem_write (m : Memory) (a : Nat) (b : Byte) (c : Host.Cell) (h : c ∈ m.write a b) :
    c = (a, b) ∨ c ∈ m := by
  induction m with
  | nil => simpa [Memory.write] using h
  | cons x rest ih =>
    obtain ⟨k, d⟩ := x
    simp only [Memory.write] at h
    split at h
    · simpa using h
    · split at h
      · rcases List.mem_cons.mp h with h | h
        · exact .inl h
        · exact .inr (List.mem_cons_of_mem _ h)
      · rcases List.mem_cons.mp h with h | h
        · exact .inr (by simp [h])
        · rcases ih h with h | h
          · exact .inl h
          · exact .inr (List.mem_cons_of_mem _ h)

/-- A write inside the buffer keeps the canonical form. -/
theorem Memory.wf_write (m : Memory) (a : Nat) (b : Byte) (ha : a < 64) (h : m.wf) : (m.write a b).wf := by
  refine ⟨?_, fun c hc => ?_⟩
  · have hp := h.1
    clear h
    induction m with
    | nil => simp [Memory.write]
    | cons x rest ih =>
      obtain ⟨k, d⟩ := x
      rw [List.pairwise_cons] at hp
      simp only [Memory.write]
      split
      · rename_i hlt
        refine List.pairwise_cons.mpr ⟨fun c hc => ?_, List.pairwise_cons.mpr hp⟩
        rcases List.mem_cons.mp hc with hc | hc
        · subst hc; exact hlt
        · exact Nat.lt_trans hlt (hp.1 c hc)
      · split
        · rename_i heq
          subst heq
          exact List.pairwise_cons.mpr hp
        · refine List.pairwise_cons.mpr ⟨fun c hc => ?_, ih hp.2⟩
          rcases Memory.mem_write rest a b c hc with hc | hc
          · subst hc; show k < a; omega
          · exact hp.1 c hc
  · rcases Memory.mem_write m a b c hc with hc | hc
    · subst hc; exact ha
    · exact h.2 c hc

theorem Memory.wf_nil : Memory.wf [] := ⟨.nil, fun _ h => by cases h⟩

/-- The whole-buffer image is in canonical form, whatever the string. -/
theorem Memory.wf_image (str : List Byte) : (Memory.image str).wf := by
  refine ⟨?_, fun c hc => ?_⟩
  · simp only [Memory.image, List.pairwise_map]
    exact List.pairwise_lt_range
  · simp only [Memory.image, List.mem_map, List.mem_range] at hc
    obtain ⟨k, hk, rfl⟩ := hc
    exact hk

theorem Memory.read_map (f : Nat → Byte) (l : List Nat) (k : Nat) (h : k ∈ l) :
    Memory.read (l.map (fun j => (j, f j))) k = some (f k) := by
  induction l with
  | nil => simp at h
  | cons j rest ih =>
    simp only [List.map_cons, Memory.read]
    split
    · rename_i hj; rw [hj]
    · rename_i hj
      exact ih ((List.mem_cons.mp h).resolve_left (fun e => hj e.symm))

/-- The image holds character k at index k, and 0x00 past the string's end (R211). -/
theorem Memory.read_image (str : List Byte) (k : Nat) (hk : k < 64) :
    (Memory.image str).read k = some (str.getD k 0x00) :=
  Memory.read_map (fun j => str.getD j 0x00) _ k (List.mem_range.mpr hk)

end Sys2Proof.Machine
end

