-- ==== Sys2Proof/Laws/State.lean ====
section
/-! SUPPORT. What each update of the state does to each field: one lemma per field per update, true by rfl. -/

namespace Sys2Proof.Machine

/-! ## setV -/

@[simp] theorem State.setV_v (s : State) (i : VReg) (x : Value) : (s.setV i x).v = s.v.set i.val x := rfl
@[simp] theorem State.setV_res (s : State) (i : VReg) (x : Value) : (s.setV i x).res = s.res := rfl
@[simp] theorem State.setV_din (s : State) (i : VReg) (x : Value) : (s.setV i x).din = s.din := rfl
@[simp] theorem State.setV_tlen (s : State) (i : VReg) (x : Value) : (s.setV i x).tlen = s.tlen := rfl
@[simp] theorem State.setV_txt (s : State) (i : VReg) (x : Value) : (s.setV i x).txt = s.txt := rfl
@[simp] theorem State.setV_status (s : State) (i : VReg) (x : Value) : (s.setV i x).status = s.status := rfl
@[simp] theorem State.setV_resetAsserted (s : State) (i : VReg) (x : Value) : (s.setV i x).resetAsserted = s.resetAsserted := rfl
@[simp] theorem State.setV_marks_v (s : State) (i : VReg) (x : Value) : (s.setV i x).marks.v = s.marks.v.set i.val true := rfl
@[simp] theorem State.setV_marks_res (s : State) (i : VReg) (x : Value) : (s.setV i x).marks.res = s.marks.res := rfl
@[simp] theorem State.setV_marks_din (s : State) (i : VReg) (x : Value) : (s.setV i x).marks.din = s.marks.din := rfl
@[simp] theorem State.setV_inputs (s : State) (i : VReg) (x : Value) : (s.setV i x).inputs = s.inputs := rfl
@[simp] theorem State.setV_replies (s : State) (i : VReg) (x : Value) : (s.setV i x).replies = s.replies := rfl
@[simp] theorem State.setV_tick (s : State) (i : VReg) (x : Value) : (s.setV i x).tick = s.tick := rfl

/-! ## setRes -/

@[simp] theorem State.setRes_v (s : State) (x : Mag) : (s.setRes x).v = s.v := rfl
@[simp] theorem State.setRes_res (s : State) (x : Mag) : (s.setRes x).res = x := rfl
@[simp] theorem State.setRes_din (s : State) (x : Mag) : (s.setRes x).din = s.din := rfl
@[simp] theorem State.setRes_tlen (s : State) (x : Mag) : (s.setRes x).tlen = s.tlen := rfl
@[simp] theorem State.setRes_txt (s : State) (x : Mag) : (s.setRes x).txt = s.txt := rfl
@[simp] theorem State.setRes_status (s : State) (x : Mag) : (s.setRes x).status = s.status := rfl
@[simp] theorem State.setRes_resetAsserted (s : State) (x : Mag) : (s.setRes x).resetAsserted = s.resetAsserted := rfl
@[simp] theorem State.setRes_marks_v (s : State) (x : Mag) : (s.setRes x).marks.v = s.marks.v := rfl
@[simp] theorem State.setRes_marks_res (s : State) (x : Mag) : (s.setRes x).marks.res = true := rfl
@[simp] theorem State.setRes_marks_din (s : State) (x : Mag) : (s.setRes x).marks.din = s.marks.din := rfl
@[simp] theorem State.setRes_inputs (s : State) (x : Mag) : (s.setRes x).inputs = s.inputs := rfl
@[simp] theorem State.setRes_replies (s : State) (x : Mag) : (s.setRes x).replies = s.replies := rfl
@[simp] theorem State.setRes_tick (s : State) (x : Mag) : (s.setRes x).tick = s.tick := rfl

/-! ## setDin -/

@[simp] theorem State.setDin_v (s : State) (x : Mag) : (s.setDin x).v = s.v := rfl
@[simp] theorem State.setDin_res (s : State) (x : Mag) : (s.setDin x).res = s.res := rfl
@[simp] theorem State.setDin_din (s : State) (x : Mag) : (s.setDin x).din = x := rfl
@[simp] theorem State.setDin_tlen (s : State) (x : Mag) : (s.setDin x).tlen = s.tlen := rfl
@[simp] theorem State.setDin_txt (s : State) (x : Mag) : (s.setDin x).txt = s.txt := rfl
@[simp] theorem State.setDin_status (s : State) (x : Mag) : (s.setDin x).status = s.status := rfl
@[simp] theorem State.setDin_resetAsserted (s : State) (x : Mag) : (s.setDin x).resetAsserted = s.resetAsserted := rfl
@[simp] theorem State.setDin_marks_v (s : State) (x : Mag) : (s.setDin x).marks.v = s.marks.v := rfl
@[simp] theorem State.setDin_marks_res (s : State) (x : Mag) : (s.setDin x).marks.res = s.marks.res := rfl
@[simp] theorem State.setDin_marks_din (s : State) (x : Mag) : (s.setDin x).marks.din = true := rfl
@[simp] theorem State.setDin_inputs (s : State) (x : Mag) : (s.setDin x).inputs = s.inputs := rfl
@[simp] theorem State.setDin_replies (s : State) (x : Mag) : (s.setDin x).replies = s.replies := rfl
@[simp] theorem State.setDin_tick (s : State) (x : Mag) : (s.setDin x).tick = s.tick := rfl

/-! ## setTlen -/

@[simp] theorem State.setTlen_v (s : State) (n : Imm) : (s.setTlen n).v = s.v := rfl
@[simp] theorem State.setTlen_res (s : State) (n : Imm) : (s.setTlen n).res = s.res := rfl
@[simp] theorem State.setTlen_din (s : State) (n : Imm) : (s.setTlen n).din = s.din := rfl
@[simp] theorem State.setTlen_tlen (s : State) (n : Imm) : (s.setTlen n).tlen = n := rfl
@[simp] theorem State.setTlen_txt (s : State) (n : Imm) : (s.setTlen n).txt = s.txt := rfl
@[simp] theorem State.setTlen_status (s : State) (n : Imm) : (s.setTlen n).status = s.status := rfl
@[simp] theorem State.setTlen_resetAsserted (s : State) (n : Imm) : (s.setTlen n).resetAsserted = s.resetAsserted := rfl
@[simp] theorem State.setTlen_marks_v (s : State) (n : Imm) : (s.setTlen n).marks.v = s.marks.v := rfl
@[simp] theorem State.setTlen_marks_res (s : State) (n : Imm) : (s.setTlen n).marks.res = s.marks.res := rfl
@[simp] theorem State.setTlen_marks_din (s : State) (n : Imm) : (s.setTlen n).marks.din = s.marks.din := rfl
@[simp] theorem State.setTlen_inputs (s : State) (n : Imm) : (s.setTlen n).inputs = s.inputs := rfl
@[simp] theorem State.setTlen_replies (s : State) (n : Imm) : (s.setTlen n).replies = s.replies := rfl
@[simp] theorem State.setTlen_tick (s : State) (n : Imm) : (s.setTlen n).tick = s.tick := rfl

/-! ## setTxt -/

@[simp] theorem State.setTxt_v (s : State) (k : Nat) (b : Byte) : (s.setTxt k b).v = s.v := rfl
@[simp] theorem State.setTxt_res (s : State) (k : Nat) (b : Byte) : (s.setTxt k b).res = s.res := rfl
@[simp] theorem State.setTxt_din (s : State) (k : Nat) (b : Byte) : (s.setTxt k b).din = s.din := rfl
@[simp] theorem State.setTxt_tlen (s : State) (k : Nat) (b : Byte) : (s.setTxt k b).tlen = s.tlen := rfl
@[simp] theorem State.setTxt_txt (s : State) (k : Nat) (b : Byte) : (s.setTxt k b).txt = s.txt.write k b := rfl
@[simp] theorem State.setTxt_status (s : State) (k : Nat) (b : Byte) : (s.setTxt k b).status = s.status := rfl
@[simp] theorem State.setTxt_resetAsserted (s : State) (k : Nat) (b : Byte) : (s.setTxt k b).resetAsserted = s.resetAsserted := rfl
@[simp] theorem State.setTxt_marks_v (s : State) (k : Nat) (b : Byte) : (s.setTxt k b).marks.v = s.marks.v := rfl
@[simp] theorem State.setTxt_marks_res (s : State) (k : Nat) (b : Byte) : (s.setTxt k b).marks.res = s.marks.res := rfl
@[simp] theorem State.setTxt_marks_din (s : State) (k : Nat) (b : Byte) : (s.setTxt k b).marks.din = s.marks.din := rfl
@[simp] theorem State.setTxt_inputs (s : State) (k : Nat) (b : Byte) : (s.setTxt k b).inputs = s.inputs := rfl
@[simp] theorem State.setTxt_replies (s : State) (k : Nat) (b : Byte) : (s.setTxt k b).replies = s.replies := rfl
@[simp] theorem State.setTxt_tick (s : State) (k : Nat) (b : Byte) : (s.setTxt k b).tick = s.tick := rfl

/-! ## writeText -/

@[simp] theorem State.writeText_v (s : State) (str : List Byte) : (s.writeText str).v = s.v := rfl
@[simp] theorem State.writeText_res (s : State) (str : List Byte) : (s.writeText str).res = s.res := rfl
@[simp] theorem State.writeText_din (s : State) (str : List Byte) : (s.writeText str).din = s.din := rfl
@[simp] theorem State.writeText_tlen (s : State) (str : List Byte) : (s.writeText str).tlen = BitVec.ofNat 7 str.length := rfl
@[simp] theorem State.writeText_txt (s : State) (str : List Byte) : (s.writeText str).txt = Memory.image str := rfl
@[simp] theorem State.writeText_status (s : State) (str : List Byte) : (s.writeText str).status = s.status := rfl
@[simp] theorem State.writeText_resetAsserted (s : State) (str : List Byte) : (s.writeText str).resetAsserted = s.resetAsserted := rfl
@[simp] theorem State.writeText_marks_v (s : State) (str : List Byte) : (s.writeText str).marks.v = s.marks.v := rfl
@[simp] theorem State.writeText_marks_res (s : State) (str : List Byte) : (s.writeText str).marks.res = s.marks.res := rfl
@[simp] theorem State.writeText_marks_din (s : State) (str : List Byte) : (s.writeText str).marks.din = s.marks.din := rfl
@[simp] theorem State.writeText_inputs (s : State) (str : List Byte) : (s.writeText str).inputs = s.inputs := rfl
@[simp] theorem State.writeText_replies (s : State) (str : List Byte) : (s.writeText str).replies = s.replies := rfl
@[simp] theorem State.writeText_tick (s : State) (str : List Byte) : (s.writeText str).tick = s.tick := rfl

/-! ## setStatus -/

@[simp] theorem State.setStatus_v (s : State) (x : Word) : (s.setStatus x).v = s.v := rfl
@[simp] theorem State.setStatus_res (s : State) (x : Word) : (s.setStatus x).res = s.res := rfl
@[simp] theorem State.setStatus_din (s : State) (x : Word) : (s.setStatus x).din = s.din := rfl
@[simp] theorem State.setStatus_tlen (s : State) (x : Word) : (s.setStatus x).tlen = s.tlen := rfl
@[simp] theorem State.setStatus_txt (s : State) (x : Word) : (s.setStatus x).txt = s.txt := rfl
@[simp] theorem State.setStatus_status (s : State) (x : Word) : (s.setStatus x).status = x := rfl
@[simp] theorem State.setStatus_resetAsserted (s : State) (x : Word) : (s.setStatus x).resetAsserted = s.resetAsserted := rfl
@[simp] theorem State.setStatus_marks_v (s : State) (x : Word) : (s.setStatus x).marks.v = s.marks.v := rfl
@[simp] theorem State.setStatus_marks_res (s : State) (x : Word) : (s.setStatus x).marks.res = s.marks.res := rfl
@[simp] theorem State.setStatus_marks_din (s : State) (x : Word) : (s.setStatus x).marks.din = s.marks.din := rfl
@[simp] theorem State.setStatus_inputs (s : State) (x : Word) : (s.setStatus x).inputs = s.inputs := rfl
@[simp] theorem State.setStatus_replies (s : State) (x : Word) : (s.setStatus x).replies = s.replies := rfl
@[simp] theorem State.setStatus_tick (s : State) (x : Word) : (s.setStatus x).tick = s.tick := rfl

/-! ## complete -/

@[simp] theorem State.complete_v (s : State) : (s.complete).v = s.v := rfl
@[simp] theorem State.complete_res (s : State) : (s.complete).res = s.res := rfl
@[simp] theorem State.complete_din (s : State) : (s.complete).din = s.din := rfl
@[simp] theorem State.complete_tlen (s : State) : (s.complete).tlen = s.tlen := rfl
@[simp] theorem State.complete_txt (s : State) : (s.complete).txt = s.txt := rfl
@[simp] theorem State.complete_status (s : State) : (s.complete).status = statusWord s.sticky 0 := rfl
@[simp] theorem State.complete_resetAsserted (s : State) : (s.complete).resetAsserted = s.resetAsserted := rfl
@[simp] theorem State.complete_marks_v (s : State) : (s.complete).marks.v = s.marks.v := rfl
@[simp] theorem State.complete_marks_res (s : State) : (s.complete).marks.res = s.marks.res := rfl
@[simp] theorem State.complete_marks_din (s : State) : (s.complete).marks.din = s.marks.din := rfl
@[simp] theorem State.complete_inputs (s : State) : (s.complete).inputs = s.inputs := rfl
@[simp] theorem State.complete_replies (s : State) : (s.complete).replies = s.replies := rfl
@[simp] theorem State.complete_tick (s : State) : (s.complete).tick = s.tick := rfl

/-! ## raise -/

@[simp] theorem State.raise_v (s : State) (e : ErrorKind) : (s.raise e).v = s.v := rfl
@[simp] theorem State.raise_res (s : State) (e : ErrorKind) : (s.raise e).res = s.res := rfl
@[simp] theorem State.raise_din (s : State) (e : ErrorKind) : (s.raise e).din = s.din := rfl
@[simp] theorem State.raise_tlen (s : State) (e : ErrorKind) : (s.raise e).tlen = s.tlen := rfl
@[simp] theorem State.raise_txt (s : State) (e : ErrorKind) : (s.raise e).txt = s.txt := rfl
@[simp] theorem State.raise_status (s : State) (e : ErrorKind) : (s.raise e).status = statusWord true e.code := rfl
@[simp] theorem State.raise_resetAsserted (s : State) (e : ErrorKind) : (s.raise e).resetAsserted = s.resetAsserted := rfl
@[simp] theorem State.raise_marks_v (s : State) (e : ErrorKind) : (s.raise e).marks.v = s.marks.v := rfl
@[simp] theorem State.raise_marks_res (s : State) (e : ErrorKind) : (s.raise e).marks.res = s.marks.res := rfl
@[simp] theorem State.raise_marks_din (s : State) (e : ErrorKind) : (s.raise e).marks.din = s.marks.din := rfl
@[simp] theorem State.raise_inputs (s : State) (e : ErrorKind) : (s.raise e).inputs = s.inputs := rfl
@[simp] theorem State.raise_replies (s : State) (e : ErrorKind) : (s.raise e).replies = s.replies := rfl
@[simp] theorem State.raise_tick (s : State) (e : ErrorKind) : (s.raise e).tick = s.tick := rfl

/-! ## reply -/

@[simp] theorem State.reply_v (s : State) (d : BitVec 64) : (s.reply d).v = s.v := rfl
@[simp] theorem State.reply_res (s : State) (d : BitVec 64) : (s.reply d).res = s.res := rfl
@[simp] theorem State.reply_din (s : State) (d : BitVec 64) : (s.reply d).din = s.din := rfl
@[simp] theorem State.reply_tlen (s : State) (d : BitVec 64) : (s.reply d).tlen = s.tlen := rfl
@[simp] theorem State.reply_txt (s : State) (d : BitVec 64) : (s.reply d).txt = s.txt := rfl
@[simp] theorem State.reply_status (s : State) (d : BitVec 64) : (s.reply d).status = s.status := rfl
@[simp] theorem State.reply_resetAsserted (s : State) (d : BitVec 64) : (s.reply d).resetAsserted = s.resetAsserted := rfl
@[simp] theorem State.reply_marks_v (s : State) (d : BitVec 64) : (s.reply d).marks.v = s.marks.v := rfl
@[simp] theorem State.reply_marks_res (s : State) (d : BitVec 64) : (s.reply d).marks.res = s.marks.res := rfl
@[simp] theorem State.reply_marks_din (s : State) (d : BitVec 64) : (s.reply d).marks.din = s.marks.din := rfl
@[simp] theorem State.reply_inputs (s : State) (d : BitVec 64) : (s.reply d).inputs = s.inputs := rfl
@[simp] theorem State.reply_replies (s : State) (d : BitVec 64) : (s.reply d).replies = d :: s.replies := rfl
@[simp] theorem State.reply_tick (s : State) (d : BitVec 64) : (s.reply d).tick = s.tick := rfl

/-! ## advance -/

@[simp] theorem State.advance_v (s : State) (rest : List HostEvent) : (s.advance rest).v = s.v := rfl
@[simp] theorem State.advance_res (s : State) (rest : List HostEvent) : (s.advance rest).res = s.res := rfl
@[simp] theorem State.advance_din (s : State) (rest : List HostEvent) : (s.advance rest).din = s.din := rfl
@[simp] theorem State.advance_tlen (s : State) (rest : List HostEvent) : (s.advance rest).tlen = s.tlen := rfl
@[simp] theorem State.advance_txt (s : State) (rest : List HostEvent) : (s.advance rest).txt = s.txt := rfl
@[simp] theorem State.advance_status (s : State) (rest : List HostEvent) : (s.advance rest).status = s.status := rfl
@[simp] theorem State.advance_resetAsserted (s : State) (rest : List HostEvent) : (s.advance rest).resetAsserted = s.resetAsserted := rfl
@[simp] theorem State.advance_marks_v (s : State) (rest : List HostEvent) : (s.advance rest).marks.v = s.marks.v := rfl
@[simp] theorem State.advance_marks_res (s : State) (rest : List HostEvent) : (s.advance rest).marks.res = s.marks.res := rfl
@[simp] theorem State.advance_marks_din (s : State) (rest : List HostEvent) : (s.advance rest).marks.din = s.marks.din := rfl
@[simp] theorem State.advance_inputs (s : State) (rest : List HostEvent) : (s.advance rest).inputs = rest := rfl
@[simp] theorem State.advance_replies (s : State) (rest : List HostEvent) : (s.advance rest).replies = s.replies := rfl
@[simp] theorem State.advance_tick (s : State) (rest : List HostEvent) : (s.advance rest).tick = s.tick + 1 := rfl

end Sys2Proof.Machine
end

