-- ==== Sys2Proof/Laws/Command.lean ====
section
/-! SUPPORT. What a write does to the contents of the registers, and everything the four ways a command ends can do:
`finish`, `finishV`, `finishRes`, `finishText` and `State.raise`. -/

namespace Sys2Proof.Machine

/-! ## Contents -/

@[simp] theorem State.contents_setV_same (s : State) (i : VReg) (x : Value) : (s.setV i x).contents i = some x := by
  simp [State.contents]

theorem State.contents_setV_other (s : State) (i j : VReg) (x : Value) (h : j ≠ i) :
    (s.setV i x).contents j = s.contents j := by
  have hv : i.val ≠ j.val := fun e => h (Fin.ext e.symm)
  simp [State.contents, hv]

/-- Contents depend on `v` and its marks alone. -/
theorem State.contents_congr (s t : State) (hv : t.v = s.v) (hm : t.marks.v = s.marks.v) (i : VReg) :
    t.contents i = s.contents i := by
  simp [State.contents, hv, hm]

/-- A register that has been written reads as what it holds, in any slot. -/
theorem State.readV_written (s : State) (slot : Nat) (i : VReg) (x : Value) (h : s.contents i = some x) :
    s.readV slot i = x := by
  simp [State.readV, h]

/-- A register that nothing has written reads as the free value of its slot (R352). -/
theorem State.readV_unwritten (s : State) (slot : Nat) (i : VReg) (h : s.contents i = none) :
    s.readV slot i = freeValue (s.draw slot) := by
  simp [State.readV, h]

/-- The width of a free value is legal (R22). -/
theorem freeValue_width (n : Nat) : 1 ≤ (freeValue n).w.toNat ∧ (freeValue n).w.toNat ≤ 64 := by
  have h := (Config.freeWidth n).isLt
  have h1 : (1 : Imm).toNat = 1 := rfl
  simp only [freeValue, BitVec.toNat_add, BitVec.toNat_setWidth, h1]
  omega

/-- Every operand has a legal width (R22). -/
theorem State.readV_width (s : State) (slot : Nat) (i : VReg) (h : s.WidthsLegal) :
    1 ≤ (s.readV slot i).w.toNat ∧ (s.readV slot i).w.toNat ≤ 64 := by
  unfold State.readV State.contents
  by_cases hm : s.marks.v[i.val] = true
  · simpa [hm] using h i
  · simpa [hm] using freeValue_width _

theorem State.left_width (s : State) (i : VReg) (h : s.WidthsLegal) :
    1 ≤ (s.left i).w.toNat ∧ (s.left i).w.toNat ≤ 64 := s.readV_width 0 i h

theorem State.right_width (s : State) (i : VReg) (h : s.WidthsLegal) :
    1 ≤ (s.right i).w.toNat ∧ (s.right i).w.toNat ≤ 64 := s.readV_width 1 i h

/-! ## STATUS -/

theorem statusWord_code (b : Bool) (c : BitVec 3) : (statusWord b c).extractLsb' 0 3 = c := by
  revert c; cases b <;> decide

theorem statusWord_sticky (b : Bool) (c : BitVec 3) : (statusWord b c).getLsbD 3 = b := by
  revert c; cases b <;> decide

theorem statusWord_reserved (b : Bool) (c : BitVec 3) : (statusWord b c).extractLsb' 4 28 = 0 := by
  revert c; cases b <;> decide

@[simp] theorem State.complete_code (s : State) : s.complete.code = 0 := statusWord_code _ _
@[simp] theorem State.complete_sticky (s : State) : s.complete.sticky = s.sticky := statusWord_sticky _ _
@[simp] theorem State.raise_code (s : State) (e : ErrorKind) : (s.raise e).code = e.code := statusWord_code _ _
@[simp] theorem State.raise_sticky (s : State) (e : ErrorKind) : (s.raise e).sticky = true := statusWord_sticky _ _

theorem ErrorKind.code_ne_zero (e : ErrorKind) : e.code ≠ 0 := by cases e <;> decide

theorem ErrorKind.code_le (e : ErrorKind) : e.code.toNat ≤ 4 := by cases e <;> decide

theorem State.complete_reportsOk (s t : State) (h : t.sticky = s.sticky) : ReportsOk s t.complete :=
  ⟨t.complete_code, by rw [t.complete_sticky, h], statusWord_reserved _ _⟩

/-! ## The ways a command ends -/

/-- Raising an error writes STATUS and nothing else (R302, R303). -/
theorem State.raise_fails (s : State) (e : ErrorKind) : Fails e s (s.raise e) :=
  ⟨s.raise_code e, s.raise_sticky e, statusWord_reserved _ _, fun i => s.contents_congr _ rfl rfl i, rfl, rfl,
    ⟨rfl, fun _ => rfl⟩, rfl, rfl, rfl, rfl⟩

@[simp] theorem finish_ok (s t : State) : finish s (.ok t) = .next t.complete := rfl
@[simp] theorem finish_error (s : State) (e : ErrorKind) : finish s (.error e) = .next (s.raise e) := rfl
@[simp] theorem finishV_ok (s : State) (rd : VReg) (x : Value) :
    finishV s rd (.ok x) = .next (s.setV rd x).complete := rfl
@[simp] theorem finishV_error (s : State) (rd : VReg) (e : ErrorKind) :
    finishV s rd (.error e) = .next (s.raise e) := rfl
@[simp] theorem finishRes_ok (s : State) (x : Mag) : finishRes s (.ok x) = .next (s.setRes x).complete := rfl
@[simp] theorem finishRes_error (s : State) (e : ErrorKind) : finishRes s (.error e) = .next (s.raise e) := rfl
@[simp] theorem finishText_ok (s : State) (str : List Byte) :
    finishText s (.ok str) = .next (s.writeText str).complete := rfl
@[simp] theorem finishText_error (s : State) (e : ErrorKind) : finishText s (.error e) = .next (s.raise e) := rfl

/-- `finish` always answers a next state (R315). -/
theorem finish_next (s : State) (r : Except ErrorKind State) : ∃ t, finish s r = .next t := by
  cases r with
  | ok t => exact ⟨_, rfl⟩
  | error e => exact ⟨_, rfl⟩

/-- A command that completes with a value in V[rd] writes that register and STATUS. -/
theorem State.setV_writesV (s : State) (rd : VReg) (x : Value) : WritesV rd x s (s.setV rd x).complete :=
  ⟨(State.contents_congr _ _ rfl rfl rd).trans (s.contents_setV_same rd x),
    fun i hi => (State.contents_congr _ _ rfl rfl i).trans (s.contents_setV_other rd i x hi),
    rfl, rfl, ⟨rfl, fun _ => rfl⟩, ⟨rfl, rfl, rfl, rfl⟩, State.complete_reportsOk _ _ rfl⟩

/-- A command that completes with a number in RES writes RES and STATUS. -/
theorem State.setRes_writesRes (s : State) (x : Mag) : WritesRes x s (s.setRes x).complete :=
  ⟨rfl, fun i => s.contents_congr _ rfl rfl i, rfl, ⟨rfl, fun _ => rfl⟩, ⟨rfl, rfl, rfl, rfl⟩,
    State.complete_reportsOk _ _ rfl⟩

/-- A command that completes with a text of at most 64 characters writes TXT, TLEN and STATUS. -/
theorem State.writeText_writesText (s : State) (str : List Byte) (h : str.length ≤ 64) :
    WritesText str s (s.writeText str).complete :=
  ⟨⟨by show (BitVec.ofNat 7 str.length).toNat = _; rw [BitVec.toNat_ofNat]; omega,
      fun k hk => Memory.read_image str k hk⟩,
    fun i => s.contents_congr _ rfl rfl i, rfl, rfl, ⟨rfl, rfl, rfl, rfl⟩, State.complete_reportsOk _ _ rfl⟩

/-- Everything `finishV` can do. -/
theorem finishV_cases (s t : State) (rd : VReg) (r : Except ErrorKind Value) (h : finishV s rd r = .next t) :
    (∃ x, r = .ok x ∧ WritesV rd x s t ∧ t = (s.setV rd x).complete) ∨
      ∃ e, r = .error e ∧ Fails e s t ∧ t = s.raise e := by
  cases r with
  | ok x => exact .inl ⟨x, rfl, by cases h; exact s.setV_writesV rd x, by cases h; rfl⟩
  | error e => exact .inr ⟨e, rfl, by cases h; exact s.raise_fails e, by cases h; rfl⟩

/-- Everything `finishRes` can do. -/
theorem finishRes_cases (s t : State) (r : Except ErrorKind Mag) (h : finishRes s r = .next t) :
    (∃ x, r = .ok x ∧ WritesRes x s t ∧ t = (s.setRes x).complete) ∨
      ∃ e, r = .error e ∧ Fails e s t ∧ t = s.raise e := by
  cases r with
  | ok x => exact .inl ⟨x, rfl, by cases h; exact s.setRes_writesRes x, by cases h; rfl⟩
  | error e => exact .inr ⟨e, rfl, by cases h; exact s.raise_fails e, by cases h; rfl⟩

/-- Everything `finishText` can do. -/
theorem finishText_cases (s t : State) (r : Except ErrorKind (List Byte)) (h : finishText s r = .next t) :
    (∃ str, r = .ok str ∧ t = (s.writeText str).complete) ∨ ∃ e, r = .error e ∧ Fails e s t ∧ t = s.raise e := by
  cases r with
  | ok str => exact .inl ⟨str, rfl, by cases h; rfl⟩
  | error e => exact .inr ⟨e, rfl, by cases h; exact s.raise_fails e, by cases h; rfl⟩

end Sys2Proof.Machine
end

