-- ==== Sys2Proof/Laws/Encoding.lean ====
section
/-! SUPPORT. The bits and the fields of an encoded word (R71), and what the must-be-zero checks say (R72). -/

namespace Sys2Proof

/-- Each bit of a word, by the field it stands in (R71). -/
theorem word_bit (op : BitVec 6) (rd rs1 rs2 : VReg) (rx : BitVec 2) (s : Bool) (b a : Imm) (i : Nat) :
    (word op rd rs1 rs2 rx s b a).getLsbD i =
      if i < 7 then a.getLsbD i
      else if i < 14 then b.getLsbD (i - 7)
      else if i < 15 then s
      else if i < 17 then rx.getLsbD (i - 15)
      else if i < 20 then rs2.val.testBit (i - 17)
      else if i < 23 then rs1.val.testBit (i - 20)
      else if i < 26 then rd.val.testBit (i - 23)
      else op.getLsbD (i - 26) := by
  simp only [word, BitVec.getLsbD_append, Nat.sub_sub, BitVec.getLsbD_ofBool, BitVec.getLsbD_ofFin]
  repeat' split
  all_goals first | rfl | (exfalso; omega) | skip
  have h : i - (7 + 7) = 0 := by omega
  simp [h]

/-- Bits hi down to lo are checked to be 0. -/
theorem zeros_iff (w : Word) (hi lo : Nat) (h : lo ≤ hi) :
    zeros w hi lo = true ↔ ∀ i, lo ≤ i → i ≤ hi → w.getLsbD i = false := by
  simp only [zeros, beq_iff_eq]
  constructor
  · intro hz i h1 h2
    have hb := congrArg (fun x : BitVec (hi - lo + 1) => x.getLsbD (i - lo)) hz
    simp only [BitVec.getLsbD_extractLsb', BitVec.ofNat_eq_ofNat, BitVec.getLsbD_zero] at hb
    have e : lo + (i - lo) = i := by omega
    have e2 : i - lo < hi - lo + 1 := by omega
    simpa [e, e2] using hb
  · intro hz
    apply BitVec.eq_of_getLsbD_eq
    intro j hj
    have := hz (lo + j) (by omega) (by omega)
    simp [BitVec.getLsbD_extractLsb', this]

variable (op : BitVec 6) (rd rs1 rs2 : VReg) (rx : BitVec 2) (s : Bool) (b a : Imm)

theorem opOf_word : opOf (word op rd rs1 rs2 rx s b a) = op := by
  apply BitVec.eq_of_getLsbD_eq
  intro i hi
  simp only [opOf, BitVec.getLsbD_extractLsb', word_bit, hi]
  repeat' split
  all_goals first | (exfalso; omega) | simp

theorem rxOf_word : rxOf (word op rd rs1 rs2 rx s b a) = rx := by
  apply BitVec.eq_of_getLsbD_eq
  intro i hi
  simp only [rxOf, BitVec.getLsbD_extractLsb', word_bit, hi]
  repeat' split
  all_goals first | (exfalso; omega) | simp

theorem bOf_word : bOf (word op rd rs1 rs2 rx s b a) = b := by
  apply BitVec.eq_of_getLsbD_eq
  intro i hi
  simp only [bOf, BitVec.getLsbD_extractLsb', word_bit, hi]
  repeat' split
  all_goals first | (exfalso; omega) | simp

theorem aOf_word : aOf (word op rd rs1 rs2 rx s b a) = a := by
  apply BitVec.eq_of_getLsbD_eq
  intro i hi
  simp only [aOf, BitVec.getLsbD_extractLsb', word_bit, hi]
  repeat' split
  all_goals first | (exfalso; omega) | simp

theorem sOf_word : sOf (word op rd rs1 rs2 rx s b a) = s := by
  rw [sOf, word_bit]
  simp

/-- A register number is the number its three bits spell. -/
theorem vreg_eq (x : BitVec 3) (r : VReg) (h : ∀ i, i < 3 → x.getLsbD i = r.val.testBit i) : (x.toFin : VReg) = r := by
  have e : x = (BitVec.ofFin r : BitVec 3) := by
    apply BitVec.eq_of_getLsbD_eq
    intro i hi
    rw [h i hi, BitVec.getLsbD_ofFin]
  rw [e]

theorem rdOf_word : rdOf (word op rd rs1 rs2 rx s b a) = rd := by
  apply vreg_eq
  intro i hi
  simp only [BitVec.getLsbD_extractLsb', word_bit, hi]
  repeat' split
  all_goals first | (exfalso; omega) | simp

theorem rs1Of_word : rs1Of (word op rd rs1 rs2 rx s b a) = rs1 := by
  apply vreg_eq
  intro i hi
  simp only [BitVec.getLsbD_extractLsb', word_bit, hi]
  repeat' split
  all_goals first | (exfalso; omega) | simp

theorem rs2Of_word : rs2Of (word op rd rs1 rs2 rx s b a) = rs2 := by
  apply vreg_eq
  intro i hi
  simp only [BitVec.getLsbD_extractLsb', word_bit, hi]
  repeat' split
  all_goals first | (exfalso; omega) | simp

/-! ## The reserved fields of each format are zero in an encoded word (R72) -/

/-- The reserved fields of a word in which every bit of the format's unused fields is 0. -/
theorem zeros_word (hi lo : Nat) (h : lo ≤ hi)
    (hz : ∀ i, lo ≤ i → i ≤ hi → (word op rd rs1 rs2 rx s b a).getLsbD i = false) :
    zeros (word op rd rs1 rs2 rx s b a) hi lo = true :=
  (zeros_iff _ hi lo h).mpr hz

theorem reservedZero_r3 : reservedZero .r3 (word op (rd := rd) (rs1 := rs1) (rs2 := rs2)) = true := by
  simp only [reservedZero]
  all_goals
    refine zeros_word _ _ _ _ _ _ _ _ _ _ (by decide) (fun i h1 h2 => ?_)
    rw [word_bit]
    repeat' split
    all_goals first | omega | simp

theorem reservedZero_r2 : reservedZero .r2 (word op (rd := rd) (rs1 := rs1)) = true := by
  simp only [reservedZero]
  all_goals
    refine zeros_word _ _ _ _ _ _ _ _ _ _ (by decide) (fun i h1 h2 => ?_)
    rw [word_bit]
    repeat' split
    all_goals first | omega | simp

theorem reservedZero_ri : reservedZero .ri (word op (rd := rd) (rs1 := rs1) (a := a)) = true := by
  simp only [reservedZero]
  all_goals
    refine zeros_word _ _ _ _ _ _ _ _ _ _ (by decide) (fun i h1 h2 => ?_)
    rw [word_bit]
    repeat' split
    all_goals first | omega | simp

theorem reservedZero_c2 : reservedZero .c2 (word op (rs1 := rs1) (rs2 := rs2)) = true := by
  simp only [reservedZero, Bool.and_eq_true]
  refine ⟨?_, ?_⟩
  all_goals
    refine zeros_word _ _ _ _ _ _ _ _ _ _ (by decide) (fun i h1 h2 => ?_)
    rw [word_bit]
    repeat' split
    all_goals first | omega | simp

theorem reservedZero_s1 : reservedZero .s1 (word op (rs1 := rs1)) = true := by
  simp only [reservedZero, Bool.and_eq_true]
  refine ⟨?_, ?_⟩
  all_goals
    refine zeros_word _ _ _ _ _ _ _ _ _ _ (by decide) (fun i h1 h2 => ?_)
    rw [word_bit]
    repeat' split
    all_goals first | omega | simp

theorem reservedZero_si : reservedZero .si (word op (rs1 := rs1) (a := a)) = true := by
  simp only [reservedZero, Bool.and_eq_true]
  refine ⟨?_, ?_⟩
  all_goals
    refine zeros_word _ _ _ _ _ _ _ _ _ _ (by decide) (fun i h1 h2 => ?_)
    rw [word_bit]
    repeat' split
    all_goals first | omega | simp

theorem reservedZero_ld : reservedZero .ld (word op (rd := rd) (s := s) (a := a)) = true := by
  simp only [reservedZero, Bool.and_eq_true]
  refine ⟨?_, ?_⟩
  all_goals
    refine zeros_word _ _ _ _ _ _ _ _ _ _ (by decide) (fun i h1 h2 => ?_)
    rw [word_bit]
    repeat' split
    all_goals first | omega | simp

theorem reservedZero_fm : reservedZero .fm (word op (rs1 := rs1) (rx := rx)) = true := by
  simp only [reservedZero, Bool.and_eq_true]
  refine ⟨⟨?_, ?_⟩, ?_⟩
  all_goals
    refine zeros_word _ _ _ _ _ _ _ _ _ _ (by decide) (fun i h1 h2 => ?_)
    rw [word_bit]
    repeat' split
    all_goals first | omega | simp

theorem reservedZero_ff : reservedZero .ff (word op (rs1 := rs1) (rx := rx) (b := b) (a := a)) = true := by
  simp only [reservedZero, Bool.and_eq_true]
  refine ⟨⟨?_, ?_⟩, ?_⟩
  all_goals
    refine zeros_word _ _ _ _ _ _ _ _ _ _ (by decide) (fun i h1 h2 => ?_)
    rw [word_bit]
    repeat' split
    all_goals first | omega | simp

theorem reservedZero_im : reservedZero .im (word op (a := a)) = true := by
  simp only [reservedZero]
  all_goals
    refine zeros_word _ _ _ _ _ _ _ _ _ _ (by decide) (fun i h1 h2 => ?_)
    rw [word_bit]
    repeat' split
    all_goals first | omega | simp

theorem reservedZero_im2 : reservedZero .im2 (word op (b := b) (a := a)) = true := by
  simp only [reservedZero]
  all_goals
    refine zeros_word _ _ _ _ _ _ _ _ _ _ (by decide) (fun i h1 h2 => ?_)
    rw [word_bit]
    repeat' split
    all_goals first | omega | simp

theorem reservedZero_n : reservedZero .n (word op) = true := by
  simp only [reservedZero]
  all_goals
    refine zeros_word _ _ _ _ _ _ _ _ _ _ (by decide) (fun i h1 h2 => ?_)
    rw [word_bit]
    repeat' split
    all_goals first | omega | simp

/-- The format PR takes the low bit of `rx`; the other is reserved (R78), and its check is `rxAllowed`. -/
theorem reservedZero_pr :
    reservedZero .pr (word op (rd := rd) (rx := rx) (s := s) (a := a)) = true := by
  simp only [reservedZero, Bool.and_eq_true]
  refine ⟨?_, ?_⟩
  all_goals
    refine zeros_word _ _ _ _ _ _ _ _ _ _ (by decide) (fun i h1 h2 => ?_)
    rw [word_bit]
    repeat' split
    all_goals first | omega | simp

end Sys2Proof
end

