-- ==== Sys2Proof/Laws/Exec.lean ====
section
/-! SUPPORT. Everything one command can do (R33, R302, R303): it writes its one target and completes, or it raises an
error. -/

namespace Sys2Proof.Machine

/-- If `exec` answers next t, one of these holds: a value went to the command's destination, a number to RES, a text to
the buffer, CLRST cleared STATUS, or an error was raised. -/
theorem exec_cases (i : Instr) (s t : State) (h : exec i s = .next t) :
    (∃ rd x, i.target = .v rd ∧ t = (s.setV rd x).complete) ∨
      (∃ x, i.target = .res ∧ t = (s.setRes x).complete) ∨
      (∃ str, i.target = .text ∧ t = (s.writeText str).complete) ∨
      (i = .clrst ∧ t = (s.setStatus (statusWord false 0)).complete) ∨
      ∃ e, t = s.raise e := by
  cases i
  all_goals simp only [exec] at h
  case clrst =>
    cases h
    exact .inr (.inr (.inr (.inl ⟨rfl, rfl⟩)))
  case ldv | parse | mov | trunc | sat | expand | setw | and | or | xor | not | shl | shr | revb | add | sub =>
    rcases finishV_cases _ _ _ _ h with ⟨x, _, _, ht⟩ | ⟨e, _, _, ht⟩
    · exact .inl ⟨_, x, rfl, ht⟩
    · exact .inr (.inr (.inr (.inr ⟨e, ht⟩)))
  case fmt | fmtf =>
    rcases finishText_cases _ _ _ h with ⟨str, _, ht⟩ | ⟨e, _, _, ht⟩
    · exact .inr (.inr (.inl ⟨str, rfl, ht⟩))
    · exact .inr (.inr (.inr (.inr ⟨e, ht⟩)))
  all_goals
    rcases finishRes_cases _ _ _ h with ⟨x, _, _, ht⟩ | ⟨e, _, _, ht⟩
    · exact .inr (.inl ⟨x, rfl, ht⟩)
    · exact .inr (.inr (.inr (.inr ⟨e, ht⟩)))

/-- A written register of a legal width keeps all widths legal (R22). -/
theorem State.setV_widthsLegal (s : State) (rd : VReg) (x : Value) (h : s.WidthsLegal)
    (hx : 1 ≤ x.w.toNat ∧ x.w.toNat ≤ 64) : (s.setV rd x).WidthsLegal := by
  intro i
  simp only [State.setV_v, Vector.getElem_set]
  split
  · exact hx
  · exact h i

end Sys2Proof.Machine
end

