-- ==== Sys2Proof/Laws/PerInstr.lean ====
section
/-! SUPPORT. One family for all commands: the word a command is encoded as has the opcode of its row of R75, and zeros in
the reserved fields of its row's format (R72). -/

namespace Sys2Proof.Laws.OpcodeAndFormat

def Statement (i : Instr) : Prop :=
  opOf (encode i) = i.head.2.1 ∧ reservedZero i.head.2.2 (encode i) = true

theorem ldv (rd : VReg) (a : Imm) (sg : Bool) : Statement (.ldv rd a sg) :=
  ⟨opOf_word _ _ _ _ _ _ _ _, reservedZero_ld _ _ _ _⟩

theorem parse (rd : VReg) (rx : Radix) (a : Imm) (sg : Bool) : Statement (.parse rd rx a sg) :=
  ⟨opOf_word _ _ _ _ _ _ _ _, reservedZero_pr _ _ _ _ _⟩

theorem mov (rd : VReg) (rs1 : VReg) : Statement (.mov rd rs1) :=
  ⟨opOf_word _ _ _ _ _ _ _ _, reservedZero_r2 _ _ _⟩

theorem rdmag (rs1 : VReg) : Statement (.rdmag rs1) :=
  ⟨opOf_word _ _ _ _ _ _ _ _, reservedZero_s1 _ _⟩

theorem rdmagw (rs1 : VReg) (a : Imm) : Statement (.rdmagw rs1 a) :=
  ⟨opOf_word _ _ _ _ _ _ _ _, reservedZero_si _ _ _⟩

theorem rdwid (rs1 : VReg) : Statement (.rdwid rs1) :=
  ⟨opOf_word _ _ _ _ _ _ _ _, reservedZero_s1 _ _⟩

theorem rdsgn (rs1 : VReg) : Statement (.rdsgn rs1) :=
  ⟨opOf_word _ _ _ _ _ _ _ _, reservedZero_s1 _ _⟩

theorem trunc (rd : VReg) (rs1 : VReg) (a : Imm) : Statement (.trunc rd rs1 a) :=
  ⟨opOf_word _ _ _ _ _ _ _ _, reservedZero_ri _ _ _ _⟩

theorem sat (rd : VReg) (rs1 : VReg) (a : Imm) : Statement (.sat rd rs1 a) :=
  ⟨opOf_word _ _ _ _ _ _ _ _, reservedZero_ri _ _ _ _⟩

theorem expand (rd : VReg) (rs1 : VReg) (a : Imm) : Statement (.expand rd rs1 a) :=
  ⟨opOf_word _ _ _ _ _ _ _ _, reservedZero_ri _ _ _ _⟩

theorem setw (rd : VReg) (rs1 : VReg) (a : Imm) : Statement (.setw rd rs1 a) :=
  ⟨opOf_word _ _ _ _ _ _ _ _, reservedZero_ri _ _ _ _⟩

theorem and (rd : VReg) (rs1 : VReg) (rs2 : VReg) : Statement (.and rd rs1 rs2) :=
  ⟨opOf_word _ _ _ _ _ _ _ _, reservedZero_r3 _ _ _ _⟩

theorem or (rd : VReg) (rs1 : VReg) (rs2 : VReg) : Statement (.or rd rs1 rs2) :=
  ⟨opOf_word _ _ _ _ _ _ _ _, reservedZero_r3 _ _ _ _⟩

theorem xor (rd : VReg) (rs1 : VReg) (rs2 : VReg) : Statement (.xor rd rs1 rs2) :=
  ⟨opOf_word _ _ _ _ _ _ _ _, reservedZero_r3 _ _ _ _⟩

theorem not (rd : VReg) (rs1 : VReg) : Statement (.not rd rs1) :=
  ⟨opOf_word _ _ _ _ _ _ _ _, reservedZero_r2 _ _ _⟩

theorem shl (rd : VReg) (rs1 : VReg) (a : Imm) : Statement (.shl rd rs1 a) :=
  ⟨opOf_word _ _ _ _ _ _ _ _, reservedZero_ri _ _ _ _⟩

theorem shr (rd : VReg) (rs1 : VReg) (a : Imm) : Statement (.shr rd rs1 a) :=
  ⟨opOf_word _ _ _ _ _ _ _ _, reservedZero_ri _ _ _ _⟩

theorem revb (rd : VReg) (rs1 : VReg) (a : Imm) : Statement (.revb rd rs1 a) :=
  ⟨opOf_word _ _ _ _ _ _ _ _, reservedZero_ri _ _ _ _⟩

theorem getb (rs1 : VReg) (a : Imm) : Statement (.getb rs1 a) :=
  ⟨opOf_word _ _ _ _ _ _ _ _, reservedZero_si _ _ _⟩

theorem add (rd : VReg) (rs1 : VReg) (rs2 : VReg) : Statement (.add rd rs1 rs2) :=
  ⟨opOf_word _ _ _ _ _ _ _ _, reservedZero_r3 _ _ _ _⟩

theorem sub (rd : VReg) (rs1 : VReg) (rs2 : VReg) : Statement (.sub rd rs1 rs2) :=
  ⟨opOf_word _ _ _ _ _ _ _ _, reservedZero_r3 _ _ _ _⟩

theorem cmp (rs1 : VReg) (rs2 : VReg) : Statement (.cmp rs1 rs2) :=
  ⟨opOf_word _ _ _ _ _ _ _ _, reservedZero_c2 _ _ _⟩

theorem eq (rs1 : VReg) (rs2 : VReg) : Statement (.eq rs1 rs2) :=
  ⟨opOf_word _ _ _ _ _ _ _ _, reservedZero_c2 _ _ _⟩

theorem ne (rs1 : VReg) (rs2 : VReg) : Statement (.ne rs1 rs2) :=
  ⟨opOf_word _ _ _ _ _ _ _ _, reservedZero_c2 _ _ _⟩

theorem lt (rs1 : VReg) (rs2 : VReg) : Statement (.lt rs1 rs2) :=
  ⟨opOf_word _ _ _ _ _ _ _ _, reservedZero_c2 _ _ _⟩

theorem le (rs1 : VReg) (rs2 : VReg) : Statement (.le rs1 rs2) :=
  ⟨opOf_word _ _ _ _ _ _ _ _, reservedZero_c2 _ _ _⟩

theorem gt (rs1 : VReg) (rs2 : VReg) : Statement (.gt rs1 rs2) :=
  ⟨opOf_word _ _ _ _ _ _ _ _, reservedZero_c2 _ _ _⟩

theorem ge (rs1 : VReg) (rs2 : VReg) : Statement (.ge rs1 rs2) :=
  ⟨opOf_word _ _ _ _ _ _ _ _, reservedZero_c2 _ _ _⟩

theorem fmt (rs1 : VReg) (rx : Radix) : Statement (.fmt rs1 rx) :=
  ⟨opOf_word _ _ _ _ _ _ _ _, reservedZero_fm _ _ _⟩

theorem fmtf (rs1 : VReg) (rx : Radix) (a : Imm) (b : Imm) : Statement (.fmtf rs1 rx a b) :=
  ⟨opOf_word _ _ _ _ _ _ _ _, reservedZero_ff _ _ _ _ _⟩

theorem mask (a : Imm) : Statement (.mask a) :=
  ⟨opOf_word _ _ _ _ _ _ _ _, reservedZero_im _ _⟩

theorem maskf (b : Imm) (a : Imm) : Statement (.maskf b a) :=
  ⟨opOf_word _ _ _ _ _ _ _ _, reservedZero_im2 _ _ _⟩

theorem hex2dec : Statement (.hex2dec) :=
  ⟨opOf_word _ _ _ _ _ _ _ _, reservedZero_n _⟩

theorem clrst : Statement (.clrst) :=
  ⟨opOf_word _ _ _ _ _ _ _ _, reservedZero_n _⟩

end Sys2Proof.Laws.OpcodeAndFormat
end

