-- ==== Sys2Proof/Laws/Port.lean ====
section
/-! SUPPORT. Everything a step and a host access can do. -/

namespace Sys2Proof.Machine

@[simp] theorem step_idle (s : State) (h : s.inputs = []) : step s = .next s := by simp [step, h]

theorem step_serves (s : State) (e : HostEvent) (rest : List HostEvent) (h : s.inputs = e :: rest) :
    step s = serve e (s.advance rest) := by simp [step, h]

/-- Everything an access can do. -/
theorem access_cases (offset bits : Nat) (act : PortReg → Host.Outcome State Fault Refusal) (s t : State)
    (h : access offset bits act s = .next t) :
    s.resetAsserted = false ∧ ∃ r, portAt offset = some r ∧ bits = r.bits ∧ act r = .next t := by
  unfold access at h
  split at h
  · cases h
  · rename_i hr
    refine ⟨by simpa using hr, ?_⟩
    split at h
    · cases h
    · rename_i r hp
      split at h
      · rename_i hb
        exact ⟨r, hp, hb, h⟩
      · cases h

/-- An access the map defines, out of reset, is served. -/
theorem access_served (offset bits : Nat) (act : PortReg → Host.Outcome State Fault Refusal) (s : State) (r : PortReg)
    (hs : s.resetAsserted = false) (hp : portAt offset = some r) (hb : bits = r.bits) :
    access offset bits act s = act r := by
  simp [access, hs, hp, hb]

/-- While reset is asserted every access is refused (R350). -/
theorem access_refused (offset bits : Nat) (act : PortReg → Host.Outcome State Fault Refusal) (s : State)
    (hs : s.resetAsserted = true) : access offset bits act s = .refused .accessDuringReset := by
  simp [access, hs]

/-- An access where the map has no register (R51, R54). -/
theorem access_undefined (offset bits : Nat) (act : PortReg → Host.Outcome State Fault Refusal) (s : State)
    (hs : s.resetAsserted = false) (hp : portAt offset = none) : access offset bits act s = .fault .undefinedOffset := by
  simp [access, hs, hp]

/-- An access of a size other than the map's (R51). -/
theorem access_wrongSize (offset bits : Nat) (act : PortReg → Host.Outcome State Fault Refusal) (s : State) (r : PortReg)
    (hs : s.resetAsserted = false) (hp : portAt offset = some r) (hb : bits ≠ r.bits) :
    access offset bits act s = .fault .wrongAccessSize := by
  simp [access, hs, hp, hb]

/-- Serving a read. -/
theorem serve_read (offset bits : Nat) (s : State) :
    serve (.read offset bits) s = access offset bits (fun r => .next (s.reply (portRead r s))) s := rfl

/-- Serving a write. -/
theorem serve_write (offset bits : Nat) (data : BitVec 64) (s : State) :
    serve (.write offset bits data) s = access offset bits (fun r => portWrite r data s) s := rfl

/-- Byte k of the buffer is at offset 0x40 + k (R51). -/
theorem portAt_byte (k : Nat) (h : k < 64) : portAt (0x40 + k) = some (.txt k) := by
  unfold portAt
  rw [if_neg (by omega), if_neg (by omega), if_neg (by omega), if_neg (by omega), if_neg (by omega), if_pos (by omega)]
  simp

/-- The buffer's registers in the window are its 64 bytes (R51). -/
theorem portAt_txt (offset k : Nat) (h : portAt offset = some (.txt k)) : k < 64 ∧ offset = 0x40 + k := by
  unfold portAt at h
  repeat' split at h
  all_goals first
    | (injection h with h; injection h with h; omega)
    | (injection h with h; exact PortReg.noConfusion h)
    | cases h

/-- The word of a command write reaches CMD whole. -/
theorem commandWrite_word (w : Word) : (w.setWidth 64).setWidth 32 = w := by
  ext i hi
  simp

end Sys2Proof.Machine
end

