-- ==== Sys2Proof/Laws/Text.lean ====
section
/-! SUPPORT. What the digit loop of the parsers answers on decimal and on hexadecimal text (R220, R221). -/

namespace Sys2Proof.Machine

/-- A string of decimal digits has a value, and it is the sum R220 accumulates. -/
theorem digitsValue_decimal (l : List Byte) (acc : Nat) (h : ∀ c ∈ l, 0x30 ≤ c.toNat ∧ c.toNat ≤ 0x39) :
    digitsValue 10 decDigit acc l = some (l.foldl (fun acc c => acc * 10 + (c.toNat - 0x30)) acc) := by
  induction l generalizing acc with
  | nil => rfl
  | cons c l ih =>
    simp only [digitsValue, decDigit, h c (by simp), and_self, if_true, List.foldl_cons]
    exact ih _ fun c hc => h c (by simp [hc])

/-- The table of hexadecimal characters and the parser's ranges agree (R12, R221). -/
theorem hexDigit_of_hexDigitIs (c : Byte) (d : Nat) (h : HexDigitIs c d) : hexDigit c = some d := by
  obtain ⟨hd, h | ⟨h10, hc⟩⟩ := h
  · interval_cases d <;> (simp [hexChars] at h; subst h; decide)
  · obtain rfl : c = BitVec.ofNat 8 (0x61 + (d - 10)) := by rw [← hc]; simp
    interval_cases d <;> first | omega | decide

/-- A string of hexadecimal digits has a value, and it is the sum R221 accumulates. -/
theorem digitsValue_hex (l : List Byte) (ds : List Nat) (acc : Nat) (h : List.Forall₂ HexDigitIs l ds) :
    digitsValue 16 hexDigit acc l = some (ds.foldl (fun acc d => acc * 16 + d) acc) := by
  induction h generalizing acc with
  | nil => rfl
  | cons h _ ih => simpa only [digitsValue, hexDigit_of_hexDigitIs _ _ h, List.foldl_cons] using ih _

end Sys2Proof.Machine
end

