-- ==== Sys2Proof/Tests/Slice0.lean ====
section
/-! SUPPORT. Tests. The expected results of the command tests are the vectors of spec/95_test_vectors.md, each theorem named
after its vector; the words of the decode tests are written out bit by bit from the fields of R71 and the opcodes of
R75. After them, a state and operands that meet the hypotheses of every statement that has some. -/

namespace Sys2Proof.Tests

open Sys2Proof.Machine

/-- The state a command word leaves. -/
def after (w : Word) (s : State) : State :=
  match runCommand w s with
  | .next t => t
  | .fault _ => s
  | .refused _ => s

/-- The state a step leaves. -/
def stepped (s : State) : State :=
  match step s with
  | .next t => t
  | .fault _ => s
  | .refused _ => s

/-! ## Well-formedness -/

/-- The one check of WellFormed refuses a PARSE of binary text (R78), and the decoder refuses its word. -/
theorem test_wellFormed_refuses_binary_parse :
    (Instr.parse 0 .bin 8 false).wellFormed = false ∧
      decode (encode (.parse 0 .bin 8 false)) = .error .reservedRadix := by decide

/-! ## Decoding: op, rd, rs1, rs2, rx, s, b, a, written out (R71, R75) -/

theorem test_decode_construct :
    decode 0b000001_101_000_000_00_1_0000000_0001001 = .ok (.ldv 5 9 true) ∧
    decode 0b000010_101_000_000_01_1_0000000_0001001 = .ok (.parse 5 .hex 9 true) ∧
    decode 0b000011_101_011_000_00_0_0000000_0000000 = .ok (.mov 5 3) ∧
    decode 0b000100_000_011_000_00_0_0000000_0000000 = .ok (.rdmag 3) ∧
    decode 0b000101_000_011_000_00_0_0000000_0001001 = .ok (.rdmagw 3 9) ∧
    decode 0b000110_000_011_000_00_0_0000000_0000000 = .ok (.rdwid 3) ∧
    decode 0b000111_000_011_000_00_0_0000000_0000000 = .ok (.rdsgn 3) := by decide

theorem test_decode_width :
    decode 0b001000_101_011_000_00_0_0000000_0001001 = .ok (.trunc 5 3 9) ∧
    decode 0b001001_101_011_000_00_0_0000000_0001001 = .ok (.sat 5 3 9) ∧
    decode 0b001010_101_011_000_00_0_0000000_0001001 = .ok (.expand 5 3 9) ∧
    decode 0b001011_101_011_000_00_0_0000000_0001001 = .ok (.setw 5 3 9) := by decide

theorem test_decode_bitwise :
    decode 0b010000_101_011_110_00_0_0000000_0000000 = .ok (.and 5 3 6) ∧
    decode 0b010001_101_011_110_00_0_0000000_0000000 = .ok (.or 5 3 6) ∧
    decode 0b010010_101_011_110_00_0_0000000_0000000 = .ok (.xor 5 3 6) ∧
    decode 0b010011_101_011_000_00_0_0000000_0000000 = .ok (.not 5 3) ∧
    decode 0b010100_101_011_000_00_0_0000000_0001001 = .ok (.shl 5 3 9) ∧
    decode 0b010101_101_011_000_00_0_0000000_0001001 = .ok (.shr 5 3 9) ∧
    decode 0b010110_101_011_000_00_0_0000000_0001001 = .ok (.revb 5 3 9) ∧
    decode 0b010111_000_011_000_00_0_0000000_0001001 = .ok (.getb 3 9) := by decide

theorem test_decode_arith :
    decode 0b011000_101_011_110_00_0_0000000_0000000 = .ok (.add 5 3 6) ∧
    decode 0b011001_101_011_110_00_0_0000000_0000000 = .ok (.sub 5 3 6) := by decide

theorem test_decode_compare :
    decode 0b100000_000_011_110_00_0_0000000_0000000 = .ok (.cmp 3 6) ∧
    decode 0b100001_000_011_110_00_0_0000000_0000000 = .ok (.eq 3 6) ∧
    decode 0b100010_000_011_110_00_0_0000000_0000000 = .ok (.ne 3 6) ∧
    decode 0b100011_000_011_110_00_0_0000000_0000000 = .ok (.lt 3 6) ∧
    decode 0b100100_000_011_110_00_0_0000000_0000000 = .ok (.le 3 6) ∧
    decode 0b100101_000_011_110_00_0_0000000_0000000 = .ok (.gt 3 6) ∧
    decode 0b100110_000_011_110_00_0_0000000_0000000 = .ok (.ge 3 6) := by decide

theorem test_decode_format :
    decode 0b101000_000_011_000_01_0_0000000_0000000 = .ok (.fmt 3 .hex) ∧
    decode 0b101001_000_011_000_01_0_0000011_0001001 = .ok (.fmtf 3 .hex 9 3) := by decide

theorem test_decode_helpers :
    decode 0b110000_000_000_000_00_0_0000000_0001001 = .ok (.mask 9) ∧
    decode 0b110001_000_000_000_00_0_0000011_0001001 = .ok (.maskf 3 9) ∧
    decode 0b110010_000_000_000_00_0_0000000_0000000 = .ok (.hex2dec) ∧
    decode 0b111111_000_000_000_00_0_0000000_0000000 = .ok (.clrst) := by decide

/-- R76, R77, R78: reserved opcodes, fields and radices. -/
theorem test_decode_refuses :
    decode 0x3C000000 = .error .reservedOpcode ∧ decode 0x61020001 = .error .reservedField ∧
      decode 0x08010008 = .error .reservedRadix ∧ decode 0xA0018000 = .error .reservedRadix := by decide

/-! ## Commands (vectors of 95_test_vectors.md, part 2) -/

/-! ### 2.1 Construction, copy, accessors -/
theorem test_ldv_C1 :
    let t := after 0x04000008 (State.reset.setDin 0x12C)
    t.contents 0 = some ⟨0x12C, 8, false⟩ ∧ t.code = 0 := by decide
theorem test_ldv_C4 :
    let t := after 0x04800000 ((State.reset.setV 1 ⟨0x9, 4, false⟩).setDin 0x5)
    t.code = 1 ∧ t.sticky = true := by decide
theorem test_mov_C6 :
    let t := after 0x0D800000 (State.reset.setV 0 ⟨0x12C, 8, false⟩)
    t.contents 3 = some ⟨0x12C, 8, false⟩ ∧ t.code = 0 := by decide
theorem test_rdmag_C7 :
    let t := after 0x10000000 (State.reset.setV 0 ⟨0x12C, 8, false⟩)
    t.resContents = some 0x12C ∧ t.code = 0 := by decide
theorem test_rdmagw_C8 :
    let t := after 0x14000008 (State.reset.setV 0 ⟨0x12C, 8, false⟩)
    t.resContents = some 0x2C ∧ t.code = 0 := by decide
theorem test_rdmagw_C9 :
    let t := after 0x14000000 (State.reset.setV 0 ⟨0x12C, 8, false⟩)
    t.resContents = some 0x0 ∧ t.code = 0 := by decide
theorem test_rdwid_C11 :
    let t := after 0x18000000 (State.reset.setV 0 ⟨0x12C, 8, false⟩)
    t.resContents = some 0x8 ∧ t.code = 0 := by decide
theorem test_rdsgn_C12 :
    let t := after 0x1C000000 (State.reset.setV 0 ⟨0x80, 8, true⟩)
    t.resContents = some 0x1 ∧ t.code = 0 := by decide

/-! ### 2.2 Mask functions and width conversion -/
theorem test_mask_W1 : let t := after 0xC0000000 State.reset; t.resContents = some 0x1 ∧ t.code = 0 := by decide
theorem test_mask_W5 :
    let t := after 0xC0000040 State.reset
    t.resContents = some 0xFFFFFFFFFFFFFFFF ∧ t.code = 0 := by decide
theorem test_maskf_W9 :
    let t := after 0xC4001E08 State.reset
    t.resContents = some 0xF000000000000000 ∧ t.code = 0 := by decide
theorem test_maskf_W12 : let t := after 0xC4000280 State.reset; t.resContents = some 0x20 ∧ t.code = 0 := by decide
theorem test_trunc_W15 :
    let t := after 0x20800010 (State.reset.setV 0 ⟨0x12C, 8, false⟩)
    t.contents 1 = some ⟨0x12C, 16, false⟩ ∧ t.code = 0 := by decide
theorem test_trunc_W16 :
    let t := after 0x20800004 (State.reset.setV 0 ⟨0xFF, 8, true⟩)
    t.contents 1 = some ⟨0xF, 4, true⟩ ∧ t.code = 0 := by decide
theorem test_sat_W20 :
    let t := after 0x24800004 (State.reset.setV 0 ⟨0x10, 8, false⟩)
    t.contents 1 = some ⟨0xF, 4, false⟩ ∧ t.code = 0 := by decide
theorem test_sat_W24 :
    let t := after 0x24800000 (State.reset.setV 0 ⟨0x1, 8, true⟩)
    t.code = 1 ∧ t.sticky = true := by decide
theorem test_expand_W26 :
    let t := after 0x28800010 (State.reset.setV 0 ⟨0x12C, 8, false⟩)
    t.contents 1 = some ⟨0x2C, 16, false⟩ ∧ t.code = 0 := by decide
theorem test_expand_W28 :
    let t := after 0x28800004 (State.reset.setV 0 ⟨0xAB, 8, false⟩)
    t.code = 1 ∧ t.sticky = true := by decide
theorem test_setw_W32 :
    let t := after 0x2C000008 (State.reset.setV 0 ⟨0x12C, 8, false⟩)
    t.contents 0 = some ⟨0xFF, 8, false⟩ ∧ t.code = 0 := by decide
theorem test_setw_W34 :
    let t := after 0x2C000010 (State.reset.setV 0 ⟨0x3, 8, true⟩)
    t.code = 2 ∧ t.sticky = true := by decide

/-! ### 2.3 Bitwise operations -/
theorem test_and_B1 :
    let t := after 0x41020000 ((State.reset.setV 0 ⟨0xF0, 8, false⟩).setV 1 ⟨0x3C, 4, false⟩)
    t.contents 2 = some ⟨0x0, 8, false⟩ ∧ t.code = 0 := by decide
theorem test_and_B4 :
    let t := after 0x41020000 ((State.reset.setV 0 ⟨0x3C, 4, false⟩).setV 1 ⟨0xFF, 8, false⟩)
    t.contents 2 = some ⟨0xC, 4, false⟩ ∧ t.code = 0 := by decide
theorem test_or_B5 :
    let t := after 0x45020000 ((State.reset.setV 0 ⟨0xF0, 8, false⟩).setV 1 ⟨0x3, 4, true⟩)
    t.code = 2 ∧ t.sticky = true := by decide
theorem test_or_B6 :
    let t := after 0x45020000 ((State.reset.setV 0 ⟨0xF0, 8, false⟩).setV 1 ⟨0x3, 8, true⟩)
    t.contents 2 = some ⟨0xF3, 8, false⟩ ∧ t.code = 0 := by decide
theorem test_xor_B7 :
    let t := after 0x49020000 ((State.reset.setV 0 ⟨0xF0, 8, true⟩).setV 1 ⟨0xF, 8, false⟩)
    t.contents 2 = some ⟨0xFF, 8, true⟩ ∧ t.code = 0 := by decide
theorem test_xor_B8 :
    let t := after 0x48920000 (State.reset.setV 1 ⟨0x5A, 8, false⟩)
    t.contents 1 = some ⟨0x0, 8, false⟩ ∧ t.code = 0 := by decide
theorem test_not_B12 :
    let t := after 0x4C800000 (State.reset.setV 0 ⟨0x12C, 8, false⟩)
    t.contents 1 = some ⟨0xD3, 8, false⟩ ∧ t.code = 0 := by decide
theorem test_shl_B13 :
    let t := after 0x50800004 (State.reset.setV 0 ⟨0x81, 8, false⟩)
    t.contents 1 = some ⟨0x10, 8, false⟩ ∧ t.code = 0 := by decide
theorem test_shl_B17 :
    let t := after 0x50800040 (State.reset.setV 0 ⟨0x1, 64, false⟩)
    t.contents 1 = some ⟨0x0, 64, false⟩ ∧ t.code = 0 := by decide
theorem test_shr_B19 :
    let t := after 0x54800001 (State.reset.setV 0 ⟨0x12C, 8, false⟩)
    t.contents 1 = some ⟨0x96, 8, false⟩ ∧ t.code = 0 := by decide
theorem test_shr_B18 :
    let t := after 0x5480007F (State.reset.setV 0 ⟨0xFFFFFFFFFFFFFFFF, 64, false⟩)
    t.contents 1 = some ⟨0x0, 64, false⟩ ∧ t.code = 0 := by decide
theorem test_revb_B25 :
    let t := after 0x58800000 (State.reset.setV 0 ⟨0x12C, 8, false⟩)
    t.contents 1 = some ⟨0x2D, 8, false⟩ ∧ t.code = 0 := by decide
theorem test_revb_B26 :
    let t := after 0x58800009 (State.reset.setV 0 ⟨0x12C, 8, false⟩)
    t.contents 1 = some ⟨0x12C, 8, false⟩ ∧ t.code = 0 := by decide
theorem test_getb_B27 :
    let t := after 0x5C000000 (State.reset.setV 0 ⟨0x5, 4, false⟩)
    t.resContents = some 0x30 ∧ t.code = 0 := by decide
theorem test_getb_B30 :
    let t := after 0x5C000007 (State.reset.setV 0 ⟨0x100, 8, false⟩)
    t.resContents = some 0x30 ∧ t.code = 0 := by decide

/-! ### 2.4 Arithmetic -/
theorem test_add_A1 :
    let t := after 0x61020000 ((State.reset.setV 0 ⟨0xFF, 8, false⟩).setV 1 ⟨0x1, 8, false⟩)
    t.contents 2 = some ⟨0x0, 8, false⟩ ∧ t.code = 0 := by decide
theorem test_add_A3 :
    let t := after 0x61020000 ((State.reset.setV 0 ⟨0x2, 4, false⟩).setV 1 ⟨0x13, 8, false⟩)
    t.contents 2 = some ⟨0x5, 4, false⟩ ∧ t.code = 0 := by decide
theorem test_sub_A5 :
    let t := after 0x65020000 ((State.reset.setV 0 ⟨0x0, 8, false⟩).setV 1 ⟨0x1, 8, false⟩)
    t.contents 2 = some ⟨0xFF, 8, false⟩ ∧ t.code = 0 := by decide
theorem test_sub_A8 :
    let t := after 0x65020000 ((State.reset.setV 0 ⟨0x80, 8, true⟩).setV 1 ⟨0x1, 8, false⟩)
    t.contents 2 = some ⟨0x7F, 8, true⟩ ∧ t.code = 0 := by decide

/-! ### 2.5 Comparison -/
theorem test_cmp_K1 :
    let t := after 0x80020000 ((State.reset.setV 0 ⟨0x3, 8, false⟩).setV 1 ⟨0x5, 8, false⟩)
    t.resContents = some 0xFFFFFFFFFFFFFFFF ∧ t.code = 0 := by decide
theorem test_cmp_K2 :
    let t := after 0x80020000 ((State.reset.setV 0 ⟨0x5, 8, false⟩).setV 1 ⟨0x5, 16, false⟩)
    t.resContents = some 0x0 ∧ t.code = 0 := by decide
theorem test_eq_K4 :
    let t := after 0x84020000 ((State.reset.setV 0 ⟨0x12C, 8, false⟩).setV 1 ⟨0x2C, 8, false⟩)
    t.resContents = some 0x0 ∧ t.code = 0 := by decide
theorem test_eq_K5 :
    let t := after 0x84020000 ((State.reset.setV 0 ⟨0x5, 8, false⟩).setV 1 ⟨0x5, 8, true⟩)
    t.resContents = some 0x1 ∧ t.code = 0 := by decide
theorem test_ne_K6 :
    let t := after 0x88020000 ((State.reset.setV 0 ⟨0x5, 8, false⟩).setV 1 ⟨0x5, 8, false⟩)
    t.resContents = some 0x0 ∧ t.code = 0 := by decide
theorem test_lt_K7 :
    let t := after 0x8C020000 ((State.reset.setV 0 ⟨0xFF, 8, true⟩).setV 1 ⟨0x1, 8, false⟩)
    t.resContents = some 0x0 ∧ t.code = 0 := by decide
theorem test_le_K8 :
    let t := after 0x90000000 (State.reset.setV 0 ⟨0x5, 8, false⟩)
    t.resContents = some 0x1 ∧ t.code = 0 := by decide
theorem test_gt_K9 :
    let t := after 0x94020000 ((State.reset.setV 0 ⟨0xFFFFFFFFFFFFFFFF, 64, false⟩).setV 1 ⟨0x0, 64, false⟩)
    t.resContents = some 0x1 ∧ t.code = 0 := by decide
theorem test_ge_K10 :
    let t := after 0x98020000 ((State.reset.setV 0 ⟨0x0, 64, false⟩).setV 1 ⟨0xFFFFFFFFFFFFFFFF, 64, false⟩)
    t.resContents = some 0x0 ∧ t.code = 0 := by decide

/-! ### 2.6 Formatting and parsing -/
theorem test_fmt_T4 :
    let t := after 0xA0000000 (State.reset.setV 0 ⟨0xFFFFFFFFFFFFFFFF, 64, false⟩)
    t.text = [0x31, 0x38, 0x34, 0x34, 0x36, 0x37, 0x34, 0x34, 0x30, 0x37, 0x33, 0x37, 0x30, 0x39, 0x35, 0x35, 0x31, 0x36, 0x31, 0x35] ∧ t.code = 0 := by decide
theorem test_fmt_T9 :
    let t := after 0xA0010000 (State.reset.setV 0 ⟨0x1F, 5, false⟩)
    t.text = [0x31, 0x31, 0x31, 0x31, 0x31] ∧ t.code = 0 := by decide
theorem test_fmtf_T14 :
    let t := after 0xA400820B (State.reset.setV 0 ⟨0xABCD, 16, false⟩)
    t.text = [0x42, 0x43] ∧ t.code = 0 := by decide
theorem test_fmtf_T19 :
    let t := after 0xA4008203 (State.reset.setV 0 ⟨0xABCD, 16, false⟩)
    t.code = 1 ∧ t.sticky = true := by decide
theorem test_parse_T28 :
    let t := after 0x0800C010 (State.reset.writeText [0x46, 0x66, 0x46, 0x66])
    t.contents 0 = some ⟨0xFFFF, 16, true⟩ ∧ t.code = 0 := by decide
theorem test_parse_T24 :
    let t := after 0x08000040 (State.reset.writeText [0x31, 0x38, 0x34, 0x34, 0x36, 0x37, 0x34, 0x34, 0x30, 0x37, 0x33, 0x37, 0x30, 0x39, 0x35, 0x35, 0x31, 0x36, 0x31, 0x36])
    t.code = 3 ∧ t.sticky = true := by decide
theorem test_hex2dec_T35 :
    let t := after 0xC8000000 (State.reset.writeText [0x31, 0x61])
    t.resContents = some 0x1A ∧ t.code = 0 := by decide
theorem test_hex2dec_T38 :
    let t := after 0xC8000000 (State.reset.writeText [0x7A])
    t.code = 2 ∧ t.sticky = true := by decide

/-! ### 2.7 Illegal commands -/
theorem test_illegal_E1 : let t := after 0x00000000 State.reset; t.code = 4 ∧ t.sticky = true := by decide
theorem test_illegal_E3 :
    let t := after 0xA0018000 (State.reset.setV 0 ⟨0x5, 8, false⟩)
    t.code = 4 ∧ t.sticky = true := by decide

/-! ### 2.8 Status sequence -/
theorem test_status_Z2 :
    (after 0x24800004 (State.reset.setV 0 ⟨0x1, 8, true⟩)).status = 0xA := by decide
theorem test_status_Z3 :
    (after 0xC0000004 (State.reset.setStatus 0xA)).status = 0x8 := by decide
theorem test_clrst_Z5 : (after 0xFC000000 (State.reset.setStatus 0x9)).status = 0 := by decide
theorem test_clrst_Z6 : (after 0xFC000001 (State.reset.setStatus 0x9)).status = 0xC := by decide

/-! ## The host window, reset, and steps (R35, R51, R52, R350) -/

theorem test_step_runs_written_word :
    (stepped (State.reset.withFetchWord 32 0xC0000008)).resContents = some 0xFF := by decide

theorem test_step_illegal_word : (stepped (State.reset.withFetchWord 32 0)).status = 0xC := by decide

theorem test_write_tlen_keeps_seven_bits :
    (stepped { State.reset with inputs := [.write 0x18 32 0xFFFFFF82] }).tlen = 2 := by decide

theorem test_write_txt_lists_the_byte :
    (stepped { State.reset with inputs := [.write 0x7F 8 0x141] }).txt = [(63, 0x41)] := by decide

theorem test_read_status :
    (stepped { State.reset.setStatus 0xA with inputs := [.read 0x04 32] }).replies = [0xA] := by decide

theorem test_write_status_ignored :
    (stepped { State.reset with inputs := [.write 0x04 32 0xF] }).status = 0 := by decide

theorem test_memory_write_keeps_order :
    Memory.write [(1, 0xAA), (5, 0xBB)] 3 0xCC = [(1, 0xAA), (3, 0xCC), (5, 0xBB)] ∧
      Memory.write [(1, 0xAA), (5, 0xBB)] 5 0xCC = [(1, 0xAA), (5, 0xCC)] := by decide

theorem test_release_of_reset :
    stepped { (State.reset.setRes 5).setTlen 3 with resetAsserted := true, inputs := [.resetInput false] } =
      { State.reset with tick := 1 } := by decide

/-! ## The assembler (R90, R91) -/

theorem test_assemble_full_forms :
    assemble "LDV v0, 8, u" = some (.ldv 0 8 false) ∧ assemble "fmtf v0, x, 11, 4" = some (.fmtf 0 .hex 11 4) ∧
      assemble "MASKF 4, 0x4" = some (.maskf 4 4) ∧ assemble "HEX2DEC" = some .hex2dec := by decide

theorem test_assemble_pseudo_forms :
    assemble "LDV v3" = some (.ldv 3 64 false) ∧ assemble "SAT v2, 5" = some (.sat 2 2 5) ∧
      assemble "AND v1, v4" = some (.and 1 1 4) ∧ assemble "FMTF v0, 7, 4" = some (.fmtf 0 .dec 7 4) := by decide

theorem test_assemble_errors :
    assemble "MASK 128" = none ∧ assemble "PARSE v0, b, 8, u" = none ∧ assemble "SHL v1, 3" = none ∧
      assemble "MOV v8, v0" = none := by decide

/-! ## States and operands that meet the hypotheses of the statements

One theorem per statement with hypotheses, a clause at a boundary value where there are several. -/

/-- V0 and V1 written, the rest as after reset. -/
def two (l r : Value) : State := (State.reset.setV 0 l).setV 1 r

/-- A text written, the rest as after reset. -/
def holding (str : List Byte) : State := State.reset.writeText str

theorem witness_DecodingAnEncodedCommandGivesItBack :
    (Instr.parse 7 .hex 127 true).wellFormed = true ∧ (Instr.fmtf 7 .bin 127 127).wellFormed = true := by decide

theorem witness_EncodingADecodedWordGivesItBack : decode 0xA400820B = .ok (.fmtf 0 .hex 11 4) := by decide

theorem witness_DecodingFollowsTheOpcodeMap :
    (⟨"CLRST", 0x3F, .n, 0xFC000000, 0xFFFFFFFF⟩ : OpcodeRow) ∈ opcodeTable := by decide

theorem witness_ReservedEncodingsRaiseIllegalCommand :
    (opOf 0x00000000).toNat = 0x00 ∧ (opOf 0x30000000).toNat = 0x0C ∧ (opOf 0x3C000000).toNat = 0x0F ∧
    (opOf 0x68000000).toNat = 0x1A ∧ (opOf 0x7C000000).toNat = 0x1F ∧ (opOf 0x9C000000).toNat = 0x27 ∧
    (opOf 0xA8000000).toNat = 0x2A ∧ (opOf 0xBC000000).toNat = 0x2F ∧ (opOf 0xCC000000).toNat = 0x33 ∧
    (opOf 0xF8000000).toNat = 0x3E ∧
    (∃ row ∈ opcodeTable, opOf 0xFC000001 = row.op ∧ reservedZero row.format 0xFC000001 = false) ∧
    ∃ row ∈ opcodeTable, opOf 0x08010008 = row.op ∧ rxAllowed row.format 0x08010008 = false := by decide

theorem witness_AssembledLinesAreCommands : assemble "PARSE v0, x, 8" = some (.parse 0 .hex 8 false) := by decide

/-- Operand texts that read as registers, immediates, radices and signednesses, all together. -/
theorem witness_operandTexts :
    asmReg ['v', '1'] = some 1 ∧ asmReg ['v', '7'] = some 7 ∧ asmReg ['v', '0'] = some 0 ∧
      asmImm ['1', '2', '7'] = some 127 ∧ asmImm ['0', 'x', '4'] = some 4 ∧ asmRadix ['x'] = some .hex ∧
      Radix.hex ≠ .bin ∧ asmSign ['s'] = some true := by decide

/-- Lines of the short forms, one for each shape of R91, and a line of an expansion. -/
theorem witness_PseudoInstructionsExpand :
    Spells "ldv v1" "LDV" [['v', '1']] ∧ Spells "LDV v1, 127" "LDV" [['v', '1'], ['1', '2', '7']] ∧
      Spells "LDV v1, 127, u" "LDV" [['v', '1'], ['1', '2', '7'], ['u']] ∧
      Spells "PARSE v1, x, 127" "PARSE" [['v', '1'], ['x'], ['1', '2', '7']] ∧
      Spells "TRUNC v1, 127" "TRUNC" [['v', '1'], ['1', '2', '7']] ∧ Spells "Not v1" "NOT" [['v', '1']] ∧
      Spells "ADD v1, v7" "ADD" [['v', '1'], ['v', '7']] ∧ Spells "FMT v1" "FMT" [['v', '1']] ∧
      Spells "FMTF v1, 127, 0x4" "FMTF" [['v', '1'], ['1', '2', '7'], ['0', 'x', '4']] := by decide

/-- A line of the full form, one without operands, and one with a number of operands SHL has no form for. -/
theorem witness_AssembledOperandsFillTheFields :
    Spells "shl v1, v7, 127" "SHL" [['v', '1'], ['v', '7'], ['1', '2', '7']] ∧ Spells "clrst" "CLRST" [] ∧
      mnemonicWord "SHL v1, 3" = "SHL".toList ∧ (operandTexts "SHL v1, 3").length ∉ [3] ∧
      "SHL" ∈ ["SHL", "SHR"] := by decide

/-- Immediates on both sides of the field's limit. -/
theorem witness_OperandTextsAreRead :
    (∀ c ∈ ['1', '2', '7'], c.toNat < 128) ∧
      ReadsDecimal (['1', '2', '7'].map fun c => BitVec.ofNat 8 c.toNat) 127 ∧
      ReadsDecimal (['1', '2', '8'].map fun c => BitVec.ofNat 8 c.toNat) 128 ∧
      ReadsHex (['7', 'f'].map fun c => BitVec.ofNat 8 c.toNat) 127 :=
  ⟨by simp, ⟨by decide, by decide, by decide⟩, ⟨by decide, by decide, by decide⟩,
    by decide, [7, 15], .cons ⟨by decide, .inl (by decide)⟩ (.cons ⟨by decide, .inr (by decide)⟩ .nil), by decide⟩

theorem witness_LinesAreCutAtTheCommas :
    "mov".toList ≠ [] ∧ (∀ c ∈ "mov".toList, c ≠ ' ' ∧ c ≠ '\t') ∧
      (∀ t ∈ [['v', '1'], ['v', '7']], t ≠ [] ∧ ∀ c ∈ t, c ≠ ' ' ∧ c ≠ '\t' ∧ c ≠ ',') ∧
      "mov v1, v7".toList = "mov".toList ++ ' ' :: [',', ' '].intercalate [['v', '1'], ['v', '7']] :=
  ⟨by decide, by simp, by simp, by decide⟩

theorem witness_StepRunsTheWrittenCommand :
    let s := { State.reset with inputs := [.write 0x00 32 0xFC000000] }
    s.inputs = .write 0x00 32 0xFC000000 :: [] ∧ s.resetAsserted = false ∧
      decode ((0xFC000000 : BitVec 64).setWidth 32) = .ok .clrst ∧
      decode ((0xFC000001 : BitVec 64).setWidth 32) = .error .reservedField := by decide

theorem witness_IdleBlockDoesNothing : State.reset.inputs = [] := by decide

theorem witness_HostReadsReturnTheRegister :
    let s := { (State.reset.setDin 7).setRes 9 with inputs := [.read 0x08 64], txt := [(0, 0x41), (63, 0x42)] }
    s.inputs = .read 0x08 64 :: [] ∧ s.resetAsserted = false ∧ s.dinContents = some 7 ∧ s.resContents = some 9 ∧
      s.txt.read 0 = some 0x41 ∧ s.txt.read 63 = some 0x42 := by decide

theorem witness_HostWritesChangeTheRegister :
    let s := { State.reset with inputs := [.write 0x7F 8 0x41] }
    s.inputs = .write 0x7F 8 0x41 :: [] ∧ s.resetAsserted = false ∧ 0x40 ≤ 0x7F ∧ 0x7F ≤ 0x7F := by decide

theorem witness_UndefinedAccessesStop :
    let s := { State.reset with inputs := [.read 0x3F 8] }
    s.inputs = .read 0x3F 8 :: [] ∧ s.resetAsserted = false ∧ step s = .fault .undefinedOffset ∧
      step { State.reset with inputs := [.read 0x80 8] } = .fault .undefinedOffset ∧
      step { State.reset with inputs := [.write 0x40 16 0] } = .fault .wrongAccessSize ∧
      step { State.reset with inputs := [.write 0x7F 64 0] } = .fault .wrongAccessSize ∧
      step { State.reset with inputs := [.read 0x10 32] } = .fault .wrongAccessSize :=
  ⟨rfl, rfl, rfl, rfl, rfl, rfl, rfl⟩

theorem witness_ResetInputHoldsAndReleases :
    let s := { State.reset with resetAsserted := true, inputs := [.read 0x04 32] }
    s.resetAsserted = true ∧ s.inputs = .read 0x04 32 :: [] ∧ step s = .refused .accessDuringReset ∧
      step { s with inputs := [.write 0x00 32 0] } = .refused .accessDuringReset ∧
      ({ s with inputs := [.resetInput false] } : State).inputs = .resetInput false :: [] :=
  ⟨rfl, rfl, rfl, rfl, rfl⟩

theorem witness_NextAccessSeesTheWrite :
    let s := { State.reset with inputs := [.write 0x7F 8 0x41, .read 0x7F 8] }
    s.resetAsserted = false ∧ 63 < 64 ∧ s.inputs = .write (0x40 + 63) 8 0x41 :: .read (0x40 + 63) 8 :: [] := by decide

theorem witness_MaskFunctionLaws :
    (1 ≤ 64 ∧ 64 ≤ 64) ∧ (1 ≤ 1 ∧ 63 + 1 ≤ 64) ∧ (1 ≤ 4 ∧ 1 ≤ 60 ∧ 0 + 4 ≤ 4 ∧ 4 + 60 ≤ 64) := by decide

/-- LdvConstructsFromDin, TruncDropsHighBits, WidthIsCheckedFirst: a width at each end of the range, and one beyond each. -/
theorem witness_widths :
    (1 ≤ (1 : Imm).toNat ∧ (64 : Imm).toNat ≤ 64) ∧ ¬(1 ≤ (0 : Imm).toNat) ∧ ¬((65 : Imm).toNat ≤ 64) := by decide

theorem witness_SatClampsToTheMaximum :
    let s := two ⟨300, 8, false⟩ ⟨1, 8, true⟩
    (s.left 0).s = false ∧ (s.left 1).s = true ∧ 1 ≤ (8 : Imm).toNat ∧ (8 : Imm).toNat ≤ 64 ∧
      ¬(1 ≤ (0 : Imm).toNat) := by decide

theorem witness_ExpandKeepsTheValue :
    let s := two ⟨300, 8, false⟩ ⟨1, 8, true⟩
    s.WidthsLegal ∧ (s.left 0).w.toNat ≤ (8 : Imm).toNat ∧ (s.left 0).s = false ∧ (s.left 1).s = true ∧
      ¬((s.left 0).w.toNat ≤ (7 : Imm).toNat) := by decide

theorem witness_SetwExpandsOrSaturates :
    let s := two ⟨300, 8, false⟩ ⟨1, 8, true⟩
    s.WidthsLegal ∧ (s.left 0).w.toNat < (9 : Imm).toNat ∧ (8 : Imm).toNat ≤ (s.left 0).w.toNat ∧
      (s.left 0).s = false ∧ (s.left 1).s = true := by decide

theorem witness_BitwiseCombinesBelowTheLeftWidth :
    let s := two ⟨0xF0, 8, false⟩ ⟨0x3, 4, true⟩
    s.WidthsLegal ∧ ((s.right 1).w.toNat < (s.left 0).w.toNat ∧ (s.right 1).s = true) ∧
      ¬((s.right 0).w.toNat < (s.left 1).w.toNat ∧ (s.right 0).s = true) := by decide

/-- NotComplementsBelowTheWidth, ShiftsMultiplyAndDivide, AddAndSubWrapAtTheLeftWidth and FmtDeliversTheText ask for legal
widths only. -/
theorem witness_legal_widths : (two ⟨0, 1, false⟩ ⟨0, 64, true⟩).WidthsLegal := by decide

theorem witness_RevbTogglesOneBit :
    let s := two ⟨6, 4, false⟩ ⟨0, 64, true⟩
    s.WidthsLegal ∧ (s.left 0).w.toNat ≤ (4 : Imm).toNat ∧ (3 : Imm).toNat < (s.left 0).w.toNat := by decide

theorem witness_GetbReadsTheStringPosition :
    let s := two ⟨5, 4, false⟩ ⟨0, 64, true⟩
    s.WidthsLegal ∧ (3 : Imm).toNat < (s.left 0).w.toNat ∧ (s.left 0).w.toNat ≤ (4 : Imm).toNat := by decide

theorem witness_TogglingTwiceGivesTheValueBack :
    let s := two ⟨6, 4, false⟩ ⟨0, 64, true⟩
    s.WidthsLegal ∧ s.contents 0 = some ⟨6, 4, false⟩ ∧ (6 : Mag).toNat < 2 ^ (4 : Imm).toNat ∧
      (3 : Imm).toNat < (4 : Imm).toNat := by decide

theorem witness_FmtfDeliversTheFieldText :
    let s := two ⟨0xABCD, 16, false⟩ ⟨0, 64, true⟩
    s.WidthsLegal ∧ ((15 : Imm).toNat < (s.left 0).w.toNat ∧ (15 : Imm).toNat ≤ (15 : Imm).toNat) ∧
      ¬((16 : Imm).toNat < (s.left 0).w.toNat) ∧ ¬((4 : Imm).toNat ≤ (3 : Imm).toNat) := by decide

theorem witness_FullRangeFmtfIsFmt :
    let s := two ⟨0xABCD, 16, false⟩ ⟨0, 64, true⟩
    s.WidthsLegal ∧ (15 : Imm).toNat + 1 = (s.left 0).w.toNat := by decide

/-- "26" reads as 26 in decimal. -/
theorem witness_ParseConstructsFromDecimalText :
    (holding [0x32, 0x36]).tlen.toNat ≤ 64 ∧ ReadsDecimal (holding [0x32, 0x36]).text 26 := by
  refine ⟨by decide, ?_⟩
  rw [show (holding [0x32, 0x36]).text = [0x32, 0x36] by decide]
  refine ⟨by decide, by decide, by decide⟩

/-- "+1" reads as no number, and TLEN 65 is too long. -/
theorem witness_ParseConstructsFromDecimalText_errors :
    (∀ n, ReadsDecimal (holding [0x2B, 0x31]).text n → 2 ^ 64 ≤ n) ∧ 64 < (State.reset.setTlen 65).tlen.toNat := by
  refine ⟨fun n h => ?_, by decide⟩
  rw [show (holding [0x2B, 0x31]).text = [0x2B, 0x31] by decide] at h
  exact absurd (h.2.1 0x2B (by decide)) (by decide)

/-- "fF" reads as 255 in hexadecimal (also for Hex2decReturnsTheNumber). -/
theorem witness_ParseConstructsFromHexText :
    (holding [0x66, 0x46]).tlen.toNat ≤ 64 ∧ ReadsHex (holding [0x66, 0x46]).text 255 := by
  refine ⟨by decide, ?_⟩
  rw [show (holding [0x66, 0x46]).text = [0x66, 0x46] by decide]
  exact ⟨by decide, [15, 15], .cons ⟨by decide, .inr (by decide)⟩ (.cons ⟨by decide, .inl (by decide)⟩ .nil), by decide⟩

/-- The empty text reads as no number (also for ParseConstructsFromHexText). -/
theorem witness_Hex2decReturnsTheNumber_error :
    ∀ n, ReadsHex State.reset.text n → 2 ^ 64 ≤ n := fun _ h => absurd rfl h.1

/-- "fF" at width 8 round-trips. -/
theorem witness_HexTextRoundTrips :
    (1 ≤ (8 : Imm).toNat ∧ (8 : Imm).toNat ≤ 64) ∧ (holding [0x66, 0x46]).tlen.toNat = ((8 : Imm).toNat + 3) / 4 ∧
      ReadsHex (holding [0x66, 0x46]).text 255 ∧ 255 < 2 ^ (8 : Imm).toNat :=
  ⟨by decide, by decide, witness_ParseConstructsFromHexText.2, by decide⟩

theorem witness_ParsingARenderingGivesTheNumber :
    1 ≤ 64 ∧ 64 ≤ 64 ∧ (0xFFFFFFFFFFFFFFFF : Mag).toNat < 2 ^ 64 := by decide

/-- An illegal word ends in a next state with a CODE that is not 0, a legal one with CODE 0. -/
theorem witness_ErrorsArePrecise :
    runCommand 0 State.reset = .next (State.reset.raise .illegalCommand) ∧
      (State.reset.raise .illegalCommand).code ≠ 0 := ⟨rfl, by decide⟩

theorem witness_EveryCommandReportsInStatus :
    runCommand 0xFC000000 (State.reset.setStatus 0x9) =
      .next ((State.reset.setStatus 0x9).setStatus (statusWord false 0)).complete ∧
      ((State.reset.setStatus 0x9).setStatus (statusWord false 0)).complete.code = 0 := ⟨rfl, by decide⟩

theorem witness_CommandsWriteOnlyTheirTarget :
    exec (.mask 8) State.reset = .next (State.reset.setRes 0xFF).complete ∧ (Instr.mask 8).target ≠ .v 0 ∧
      (Instr.mask 8).target ≠ .text ∧ (Instr.clrst).target ≠ .res := ⟨rfl, by decide, by decide, by decide⟩

/-- Two states that differ in a signed flag, and a command that does not read it. -/
theorem witness_SignedFlagsSteerOnlyTheNamedCommands :
    (Instr.add 2 0 0).readsSign = false ∧
      SameButSigns (State.reset.setV 0 ⟨5, 8, true⟩) (State.reset.setV 0 ⟨5, 8, false⟩) ∧
      (∃ t, exec (.add 2 0 0) (State.reset.setV 0 ⟨5, 8, true⟩) = .next t) ∧
      ∃ t, exec (.add 2 0 0) (State.reset.setV 0 ⟨5, 8, false⟩) = .next t :=
  ⟨rfl, ⟨by decide, rfl, rfl, ⟨rfl, fun _ => rfl⟩, ⟨rfl, rfl, rfl, rfl⟩, rfl⟩, ⟨_, rfl⟩, ⟨_, rfl⟩⟩

theorem witness_ComputedMagnitudesFitTheirWidth :
    let s := two ⟨0x12C, 8, false⟩ ⟨1, 8, false⟩
    s.WidthsLegal ∧ (Instr.add 2 0 1).computes = true ∧ (Instr.add 2 0 1).target = .v 2 ∧
      runCommand 0x61020000 s = .next (after 0x61020000 s) ∧ (after 0x61020000 s).code = 0 ∧
      (0 : Imm).toNat < (s.left 0).w.toNat := by
  refine ⟨by decide, rfl, rfl, rfl, by decide, by decide⟩

theorem witness_StepKeepsTheInvariant :
    State.reset.Inv ∧ step State.reset = .next State.reset := ⟨by decide, rfl⟩

/-- Two different states no read can tell apart: what an unwritten register is stored with differs. -/
theorem witness_UnwrittenContentsNeverMatter :
    SameReads State.reset { State.reset with res := 1, din := 2, v := Vector.replicate 8 ⟨3, 4, true⟩ } :=
  ⟨⟨fun i => by revert i; decide, rfl, rfl, ⟨rfl, fun _ => rfl⟩, ⟨rfl, rfl, rfl, rfl⟩⟩, rfl⟩

theorem witness_EachUnwrittenReadHasItsOwnDraw :
    127 < 128 ∧ State.reset.draw 127 = State.reset.draw 127 ∧ State.reset.contents 7 = none ∧
      State.reset.dinContents = none ∧ State.reset.resContents = none ∧ State.reset.txt.read 63 = none ∧
      ({ State.reset with inputs := [.resetInput true] } : State).inputs ≠ [] := by decide

end Sys2Proof.Tests
end

/-! SUPPORT. The statements about the state (spec/10_state.md): the invariant of every run, what a command leaves as it
was, what the signed flags steer. -/

namespace Sys2Proof.Machine

/-! ## The mask of a legal width (R130, R133) -/

/-- The width of a value is in [1,64] (R22). -/
abbrev Value.LegalWidth (x : Value) : Prop := 1 ≤ x.w.toNat ∧ x.w.toNat ≤ 64

theorem mask_toNat (n : Nat) (h1 : 1 ≤ n) (h64 : n ≤ 64) : (mask n).toNat = 2 ^ n - 1 := by
  have hclamp : clamp n 1 64 = n := by unfold clamp; omega
  simp only [mask, hclamp]
  split
  · next h => subst h; rfl
  · have hlt : 2 ^ n < 2 ^ 64 := Nat.pow_lt_pow_right (by decide) (by omega)
    have hpos : 0 < 2 ^ n := Nat.two_pow_pos n
    rw [BitVec.toNat_sub, BitVec.toNat_shiftLeft, BitVec.toNat_ofNat, Nat.shiftLeft_eq]
    omega

/-- A magnitude under the mask of a legal width has no bit at or above it. -/
theorem and_mask_lt (m : Mag) (n : Nat) (h1 : 1 ≤ n) (h64 : n ≤ 64) : (m &&& mask n).toNat < 2 ^ n := by
  have hle : (m &&& mask n).toNat ≤ (mask n).toNat := by rw [BitVec.toNat_and]; exact Nat.and_le_right
  have hpos := Nat.two_pow_pos n
  rw [mask_toNat n h1 h64] at hle
  omega

theorem badWidth_eq_true_iff (a : Imm) : badWidth a = true ↔ ¬(1 ≤ a.toNat ∧ a.toNat ≤ 64) := by
  simp only [badWidth, Bool.or_eq_true, decide_eq_true_eq]
  omega

/-- A check that raises an error lets a result through only where it does not apply. -/
theorem ite_error_eq_ok_iff {α : Type} (c : Prop) [Decidable c] (e : ErrorKind) (r : Except ErrorKind α) (x : α) :
    (if c then .error e else r) = .ok x ↔ ¬c ∧ r = .ok x := by
  split <;> simp [*]

/-- The width check lets a result through only at a legal width (R100, R133, R222). -/
theorem ite_badWidth_eq_ok_iff {α : Type} (a : Imm) (e : ErrorKind) (r : Except ErrorKind α) (x : α) :
    (if badWidth a then .error e else r) = .ok x ↔ (1 ≤ a.toNat ∧ a.toNat ≤ 64) ∧ r = .ok x := by
  rw [ite_error_eq_ok_iff, badWidth_eq_true_iff, not_not]

/-! ## What the computed values look like (R23, R160) -/

/-- The value has a legal width and no bit at or above it (R22, R23). -/
def Value.Fits (x : Value) : Prop := x.LegalWidth ∧ x.Masked

theorem Value.withMag_fits (x : Value) (m : Mag) (hx : x.LegalWidth) : (x.withMag m).Fits :=
  ⟨hx, and_mask_lt _ _ hx.1 hx.2⟩

theorem truncated_fits (x : Value) (a : Imm) (ha : 1 ≤ a.toNat ∧ a.toNat ≤ 64) : (truncated x a).Fits :=
  ⟨ha, and_mask_lt _ _ ha.1 ha.2⟩

theorem saturated_fits (x y : Value) (a : Imm) (ha : 1 ≤ a.toNat ∧ a.toNat ≤ 64) (h : saturated x a = .ok y) :
    y.Fits := by
  simp only [saturated, ite_error_eq_ok_iff] at h
  obtain ⟨-, h⟩ := h
  split at h
  · cases h
    refine ⟨ha, ?_⟩
    simpa [Value.Masked] using and_mask_lt (mask a.toNat) _ ha.1 ha.2
  · cases h
    exact ⟨ha, and_mask_lt _ _ ha.1 ha.2⟩

/-- The magnitude of an expansion fits the old width, and so the new one. -/
theorem expanded_fits (x y : Value) (a : Imm) (hx : x.LegalWidth) (ha : 1 ≤ a.toNat ∧ a.toNat ≤ 64)
    (h : expanded x a = .ok y) : y.Fits := by
  simp only [expanded, ite_error_eq_ok_iff, Except.ok.injEq] at h
  obtain ⟨hwider, -, rfl⟩ := h
  exact ⟨ha, (and_mask_lt x.mag _ hx.1 hx.2).trans_le (Nat.pow_le_pow_right (by decide) (Nat.le_of_not_lt hwider))⟩

theorem combined_fits (op : Mag → Mag → Mag) (l r y : Value) (hl : l.LegalWidth) (h : combined op l r = .ok y) :
    y.Fits := by
  unfold combined at h
  split at h
  · cases h; exact l.withMag_fits _ hl
  · cases h

/-! ## What a command may write to its destination (R22, R23) -/

/-- What the command may write to its destination: a value of a legal width and, where the command computes, one that
fits its width. -/
def MayWrite (i : Instr) (x : Value) : Prop := x.LegalWidth ∧ (i.computes = true → x.Masked)

theorem Value.Fits.mayWrite {x : Value} (h : x.Fits) (i : Instr) : MayWrite i x := ⟨h.1, fun _ => h.2⟩

/-- A completed state tells which value went to the destination. -/
theorem finishV_completes (s : State) (rd : VReg) (x : Value) (r : Except ErrorKind Value)
    (h : finishV s rd r = .next (s.setV rd x).complete) : r = .ok x := by
  rcases finishV_cases _ _ _ _ h with ⟨y, rfl, hw, -⟩ | ⟨e, -, hf, -⟩
  · have hx := (s.setV_writesV rd x).1
    rw [hw.1] at hx
    cases hx; rfl
  · exact absurd (hf.1.symm.trans (State.complete_code _)) e.code_ne_zero

/-- REVB at a position below the width toggles that bit (R168). -/
theorem execRevb_toggle (rd rs1 : VReg) (a : Imm) (s : State) (ha : a.toNat < (s.left rs1).w.toNat) :
    execRevb rd rs1 a s =
      finishV s rd (.ok ((s.left rs1).withMag ((s.left rs1).mag ^^^ shiftLeft 1 a.toNat))) := by
  unfold execRevb
  rw [if_neg (by omega)]

/-- Every value a command writes to its destination has a legal width, and fits it if the command computes. -/
theorem exec_mayWrite (i : Instr) (s : State) (rd : VReg) (x : Value) (hs : s.WidthsLegal) (hi : i.target = .v rd)
    (h : exec i s = .next (s.setV rd x).complete) : MayWrite i x := by
  have hleft (r : VReg) : (s.left r).LegalWidth := s.left_width r hs
  cases i <;> cases hi <;> simp only [exec] at h <;> replace h := finishV_completes _ _ _ _ h
  case ldv =>
    simp only [ite_badWidth_eq_ok_iff, Except.ok.injEq] at h
    obtain ⟨ha, rfl⟩ := h
    exact ⟨ha, nofun⟩
  case parse =>
    rw [ite_error_eq_ok_iff, ite_badWidth_eq_ok_iff, ite_error_eq_ok_iff] at h
    obtain ⟨-, ha, -, h⟩ := h
    split at h
    · cases h; exact ⟨ha, nofun⟩
    · cases h
  case mov =>
    cases h; exact ⟨hleft _, nofun⟩
  case trunc =>
    simp only [ite_badWidth_eq_ok_iff, Except.ok.injEq] at h
    obtain ⟨ha, rfl⟩ := h
    exact (truncated_fits _ _ ha).mayWrite _
  case sat =>
    rw [ite_badWidth_eq_ok_iff] at h
    exact (saturated_fits _ _ _ h.1 h.2).mayWrite _
  case expand =>
    rw [ite_badWidth_eq_ok_iff] at h
    exact (expanded_fits _ _ _ (hleft _) h.1 h.2).mayWrite _
  case setw =>
    rw [ite_badWidth_eq_ok_iff] at h
    obtain ⟨ha, h⟩ := h
    split at h
    · exact (expanded_fits _ _ _ (hleft _) ha h).mayWrite _
    · exact (saturated_fits _ _ _ ha h).mayWrite _
  case and | or | xor =>
    exact (combined_fits _ _ _ _ (hleft _) h).mayWrite _
  case not | shl | shr | add | sub =>
    cases h; exact (Value.withMag_fits _ _ (hleft _)).mayWrite _
  case revb =>
    cases h
    refine ⟨?_, nofun⟩
    split
    · exact hleft _
    · exact (Value.withMag_fits _ _ (hleft _)).1

/-! ## STATUS after a command (R27, R302, R303) -/

theorem State.complete_statusLegal (s : State) : s.complete.StatusLegal :=
  ⟨statusWord_reserved _ _, by simp, by simp⟩

theorem State.raise_statusLegal (s : State) (e : ErrorKind) : (s.raise e).StatusLegal :=
  ⟨statusWord_reserved _ _, by simpa using e.code_le, by simp⟩

/-! ## The invariant of every run -/

/-- Settles O54: no width but 64, no byte written, STATUS 0. -/
theorem resetMeetsTheInvariant : Obligations.ResetMeetsTheInvariant :=
  ⟨by decide, Memory.wf_nil, by decide⟩

/-- Every command keeps the invariant: it writes a value of a legal width, a whole buffer, or neither, and then a legal
STATUS. -/
theorem exec_keeps_inv (i : Instr) (s t : State) (hs : s.Inv) (h : exec i s = .next t) : t.Inv := by
  obtain ⟨hw, htxt, -⟩ := hs
  rcases exec_cases i s t h with ⟨rd, x, hi, rfl⟩ | ⟨x, -, rfl⟩ | ⟨str, -, rfl⟩ | ⟨-, rfl⟩ | ⟨e, rfl⟩
  · have hx := (exec_mayWrite i s rd x hw hi h).1
    exact ⟨s.setV_widthsLegal rd x hw hx, htxt, State.complete_statusLegal _⟩
  · exact ⟨hw, htxt, State.complete_statusLegal _⟩
  · exact ⟨hw, Memory.wf_image str, State.complete_statusLegal _⟩
  · exact ⟨hw, htxt, State.complete_statusLegal _⟩
  · exact ⟨hw, htxt, s.raise_statusLegal e⟩

theorem runCommand_keeps_inv (w : Word) (s t : State) (hs : s.Inv) (h : runCommand w s = .next t) : t.Inv := by
  unfold runCommand at h
  split at h
  · exact exec_keeps_inv _ s t hs h
  · cases h
    obtain ⟨hw, htxt, -⟩ := hs
    exact ⟨hw, htxt, s.raise_statusLegal _⟩

/-- A host write keeps the invariant: only CMD and TXT can reach what it speaks of, and the window has no byte beyond
the 64 of TXT. -/
theorem portWrite_keeps_inv (offset : Nat) (r : PortReg) (data : BitVec 64) (s t : State) (hs : s.Inv)
    (hr : portAt offset = some r) (h : portWrite r data s = .next t) : t.Inv := by
  cases r with
  | cmd => exact runCommand_keeps_inv _ s t hs h
  | txt k =>
    cases h
    obtain ⟨hw, htxt, hst⟩ := hs
    exact ⟨hw, s.txt.wf_write k _ (portAt_txt offset k hr).1 htxt, hst⟩
  | status | din | res | tlen => cases h; exact hs

theorem resetInput_keeps_inv (asserted : Bool) (s t : State) (hs : s.Inv) (h : resetInput asserted s = .next t) :
    t.Inv := by
  cases h
  split
  · exact hs
  · split
    · exact resetMeetsTheInvariant
    · exact hs

theorem serve_keeps_inv (e : HostEvent) (s t : State) (hs : s.Inv) (h : serve e s = .next t) : t.Inv := by
  cases e with
  | read offset bits =>
    obtain ⟨-, r, -, -, hact⟩ := access_cases _ _ _ _ _ h
    cases hact
    exact hs
  | write offset bits data =>
    obtain ⟨-, r, hr, -, hact⟩ := access_cases _ _ _ _ _ h
    exact portWrite_keeps_inv offset r data s t hs hr hact
  | resetInput asserted => exact resetInput_keeps_inv asserted s t hs h

/-- Settles O53: a waiting block stays as it is, and no event it serves breaks the invariant. -/
theorem stepKeepsTheInvariant : Obligations.StepKeepsTheInvariant := by
  intro s t hs h
  cases hin : s.inputs with
  | nil =>
    rw [step_idle s hin] at h
    cases h
    exact hs
  | cons e rest =>
    rw [step_serves s e rest hin] at h
    exact serve_keeps_inv e (s.advance rest) t hs h

/-- Settles O52: every computing command writes a value that fits its width, and a REVB below the width toggles. -/
theorem computedMagnitudesFitTheirWidth : Obligations.ComputedMagnitudesFitTheirWidth := by
  intro s t hs
  refine ⟨fun i rd hcomp hi h hcode => ?_, fun rd rs1 a ha h => ?_⟩
  · rcases exec_cases i s t h with ⟨rd', x, hi', rfl⟩ | ⟨x, hi', -⟩ | ⟨str, hi', -⟩ | ⟨rfl, -⟩ | ⟨e, rfl⟩
    · obtain rfl : rd = rd' := by simpa [hi] using hi'
      exact ⟨x, (s.setV_writesV rd x).1, (exec_mayWrite i s rd x hs hi h).2 hcomp⟩
    · simp [hi] at hi'
    · simp [hi] at hi'
    · cases hi
    · exact absurd ((s.raise_code e).symm.trans hcode) e.code_ne_zero
  · rw [show exec (.revb rd rs1 a) s = execRevb rd rs1 a s from rfl, execRevb_toggle rd rs1 a s ha] at h
    cases h
    exact ⟨_, (s.setV_writesV rd _).1, (Value.withMag_fits _ _ (s.left_width rs1 hs)).2⟩

/-- Settles O10: with no event to come the step is the idle one (R25, R34). -/
theorem idleBlockDoesNothing : Obligations.IdleBlockDoesNothing := step_idle

/-! ## What a command leaves as it was (R33) -/

/-- Settles O50: a command writes its one target and STATUS, or, where it fails, STATUS alone. -/
theorem commandsWriteOnlyTheirTarget : Obligations.CommandsWriteOnlyTheirTarget := by
  intro i s t h
  rcases exec_cases i s t h with ⟨rd, x, hi, rfl⟩ | ⟨x, hi, rfl⟩ | ⟨str, hi, rfl⟩ | ⟨-, rfl⟩ | ⟨e, rfl⟩
  · obtain ⟨-, hv, hres, hdin, htext, hport, -⟩ := s.setV_writesV rd x
    exact ⟨hdin, hport, fun r hr => hv r fun e => hr (by rw [hi, e]), fun _ => hres, fun _ => htext⟩
  · obtain ⟨-, hv, hdin, htext, hport, -⟩ := s.setRes_writesRes x
    exact ⟨hdin, hport, fun r _ => hv r, fun hr => absurd hi hr, fun _ => htext⟩
  · exact ⟨rfl, ⟨rfl, rfl, rfl, rfl⟩, fun r _ => s.contents_congr _ rfl rfl r, fun _ => rfl, fun hr => absurd hi hr⟩
  · exact ⟨rfl, ⟨rfl, rfl, rfl, rfl⟩, fun r _ => s.contents_congr _ rfl rfl r, fun _ => rfl, fun _ => ⟨rfl, fun _ => rfl⟩⟩
  · obtain ⟨-, -, -, hv, hres, hdin, htext, hport⟩ := s.raise_fails e
    exact ⟨hdin, hport, fun r _ => hv r, fun _ => hres, fun _ => htext⟩

/-! ## Two states alike but for signed flags (R24) -/

section Signs

variable {s s' t t' : State}

/-- Such states read value registers alike but for the signed flag: an unwritten one takes the same draw in both. -/
theorem SameButSigns.readV (h : SameButSigns s s') (slot : Nat) (r : VReg) :
    (s'.readV slot r).unsignedPart = (s.readV slot r).unsignedPart := by
  obtain ⟨hv, -, -, -, ⟨-, -, -, htick⟩, -⟩ := h
  have hr := hv r
  unfold State.readV
  cases hc : s.contents r <;> cases hc' : s'.contents r <;> simp [hc, hc'] at hr
  case none.none => simp only [State.draw, htick]
  case some.some => exact hr

theorem SameButSigns.left_mag (h : SameButSigns s s') (r : VReg) : (s'.left r).mag = (s.left r).mag :=
  congrArg Prod.fst (h.readV 0 r)

theorem SameButSigns.left_w (h : SameButSigns s s') (r : VReg) : (s'.left r).w = (s.left r).w :=
  congrArg Prod.snd (h.readV 0 r)

theorem SameButSigns.right_mag (h : SameButSigns s s') (r : VReg) : (s'.right r).mag = (s.right r).mag :=
  congrArg Prod.fst (h.readV 1 r)

theorem SameButSigns.left_mask (h : SameButSigns s s') (r : VReg) : (s'.left r).mask = (s.left r).mask := by
  rw [Value.mask, h.left_w, Value.mask]

theorem SameButSigns.left_val (h : SameButSigns s s') (r : VReg) : (s'.left r).val = (s.left r).val := by
  rw [Value.val, h.left_mag, h.left_mask, Value.val]

theorem SameButSigns.compare (h : SameButSigns s s') (r q : VReg) : s'.compare r q = s.compare r q := by
  simp only [State.compare, h.left_mag, h.right_mag]

theorem SameButSigns.readDin (h : SameButSigns s s') : s'.readDin = s.readDin := by
  obtain ⟨-, -, hdin, -, ⟨-, -, -, htick⟩, -⟩ := h
  simp only [State.readDin, State.draw, hdin, htick]

theorem SameButSigns.tlen (h : SameButSigns s s') : s'.tlen = s.tlen := by
  obtain ⟨-, -, -, ⟨htlen, -⟩, -⟩ := h
  exact htlen

theorem SameButSigns.text (h : SameButSigns s s') : s'.text = s.text := by
  obtain ⟨-, -, -, ⟨htlen, htxt⟩, ⟨-, -, -, htick⟩, -⟩ := h
  have hread : s'.readTxt = s.readTxt := funext fun k => by
    simp only [State.readTxt, State.unlistedByte, State.draw, htxt, htick]
  simp only [State.text, htlen, hread]

/-! The same write to both keeps them such. -/

theorem SameButSigns.setStatus (h : SameButSigns s s') (x : Word) : SameButSigns (s.setStatus x) (s'.setStatus x) := by
  obtain ⟨hv, hres, hdin, htext, hport, -⟩ := h
  exact ⟨hv, hres, hdin, htext, hport, rfl⟩

theorem SameButSigns.complete (h : SameButSigns s s') : SameButSigns s.complete s'.complete := by
  have hsticky : s'.sticky = s.sticky := by
    obtain ⟨-, -, -, -, -, hstatus⟩ := h
    rw [State.sticky, hstatus, State.sticky]
  simpa only [State.complete, hsticky] using h.setStatus _

theorem SameButSigns.setRes (h : SameButSigns s s') (x : Mag) : SameButSigns (s.setRes x) (s'.setRes x) := by
  obtain ⟨hv, -, hdin, htext, hport, hstatus⟩ := h
  exact ⟨hv, rfl, hdin, htext, hport, hstatus⟩

theorem SameButSigns.writeText (h : SameButSigns s s') (str : List Byte) :
    SameButSigns (s.writeText str) (s'.writeText str) := by
  obtain ⟨hv, hres, hdin, -, hport, hstatus⟩ := h
  exact ⟨hv, hres, hdin, ⟨rfl, fun _ => rfl⟩, hport, hstatus⟩

theorem SameButSigns.setV (h : SameButSigns s s') (rd : VReg) (x x' : Value)
    (hx : x'.unsignedPart = x.unsignedPart) : SameButSigns (s.setV rd x) (s'.setV rd x') := by
  obtain ⟨hv, hres, hdin, htext, hport, hstatus⟩ := h
  refine ⟨fun i => ?_, hres, hdin, htext, hport, hstatus⟩
  by_cases hi : i = rd
  · subst hi
    simp [hx]
  · simpa only [State.contents_setV_other _ _ _ _ hi] using hv i

/-! And so do the ways a command ends, on results alike but for the signed flag. -/

theorem SameButSigns.raise (h : SameButSigns s s') (e : ErrorKind) : SameButSigns (s.raise e) (s'.raise e) :=
  h.setStatus _

theorem SameButSigns.of_finishRes (h : SameButSigns s s') {r r' : Except ErrorKind Mag} (hr : r' = r)
    (hs : finishRes s r = .next t) (hs' : finishRes s' r' = .next t') : SameButSigns t t' := by
  subst hr
  cases r' with
  | ok x => cases hs; cases hs'; exact (h.setRes x).complete
  | error e => cases hs; cases hs'; exact h.raise e

theorem SameButSigns.of_finishText (h : SameButSigns s s') {r r' : Except ErrorKind (List Byte)} (hr : r' = r)
    (hs : finishText s r = .next t) (hs' : finishText s' r' = .next t') : SameButSigns t t' := by
  subst hr
  cases r' with
  | ok str => cases hs; cases hs'; exact (h.writeText str).complete
  | error e => cases hs; cases hs'; exact h.raise e

theorem SameButSigns.of_finishV (h : SameButSigns s s') {rd : VReg} {r r' : Except ErrorKind Value}
    (hr : r'.map Value.unsignedPart = r.map Value.unsignedPart)
    (hs : finishV s rd r = .next t) (hs' : finishV s' rd r' = .next t') : SameButSigns t t' := by
  cases r <;> cases r' <;> simp only [Except.map, Except.ok.injEq, Except.error.injEq, reduceCtorEq] at hr
  case ok.ok x x' => cases hs; cases hs'; exact (h.setV rd x x' hr).complete
  case error.error e e' => subst hr; cases hs; cases hs'; exact h.raise _

theorem SameButSigns.of_finishV_ok (h : SameButSigns s s') {rd : VReg} {x x' : Value}
    (hx : x'.unsignedPart = x.unsignedPart) (hs : finishV s rd (.ok x) = .next t)
    (hs' : finishV s' rd (.ok x') = .next t') : SameButSigns t t' :=
  h.of_finishV (r := .ok x) (r' := .ok x') (congrArg Except.ok hx) hs hs'

/-- The same magnitude, masked to the width of an operand. -/
theorem SameButSigns.withMag_left (h : SameButSigns s s') (r : VReg) {m m' : Mag} (hm : m' = m) :
    ((s'.left r).withMag m').unsignedPart = ((s.left r).withMag m).unsignedPart := by
  simp only [Value.withMag, Value.unsignedPart, h.left_mask, h.left_w, hm]

end Signs

/-- Settles O51: the result of every other command is made of what reads alike in the two states. -/
theorem signedFlagsSteerOnlyTheNamedCommands : Obligations.SignedFlagsSteerOnlyTheNamedCommands := by
  intro i s s' t t' hi h hs hs'
  cases i <;> cases hi <;> simp only [exec] at hs hs'
  case ldv =>
    exact h.of_finishV (by rw [h.readDin]) hs hs'
  case parse =>
    exact h.of_finishV (by rw [h.tlen, h.text]) hs hs'
  case mov rd rs1 =>
    exact h.of_finishV_ok (h.readV 0 rs1) hs hs'
  case trunc rd rs1 a =>
    refine h.of_finishV ?_ hs hs'
    split
    · rfl
    · simp only [Except.map, truncated, Value.unsignedPart, h.left_mag]
  case not =>
    exact h.of_finishV_ok (h.withMag_left _ (by rw [h.left_mag, h.left_mask])) hs hs'
  case shl | shr =>
    exact h.of_finishV_ok (h.withMag_left _ (by rw [h.left_mag])) hs hs'
  case add | sub =>
    exact h.of_finishV_ok (h.withMag_left _ (by rw [h.left_mag, h.right_mag])) hs hs'
  case revb rd rs1 a =>
    refine h.of_finishV_ok ?_ hs hs'
    rw [h.left_w]
    split
    · exact h.readV 0 rs1
    · exact h.withMag_left rs1 (by rw [h.left_mag])
  case fmt =>
    exact h.of_finishText (by rw [h.left_val, h.left_w]) hs hs'
  case fmtf =>
    exact h.of_finishText (by rw [h.left_mag, h.left_w]) hs hs'
  case clrst =>
    cases hs; cases hs'
    exact (h.setStatus _).complete
  case hex2dec =>
    exact h.of_finishRes (by rw [h.tlen, h.text]) hs hs'
  case mask | maskf =>
    exact h.of_finishRes rfl hs hs'
  case cmp | eq | ne | lt | le | gt | ge =>
    exact h.of_finishRes (by rw [h.compare]) hs hs'
  case rdmag | rdmagw =>
    exact h.of_finishRes (by rw [h.left_mag]) hs hs'
  case rdwid =>
    exact h.of_finishRes (by rw [h.left_w]) hs hs'
  case getb =>
    exact h.of_finishRes (by rw [h.left_val, h.left_w]) hs hs'

end Sys2Proof.Machine

/-! SUPPORT. The statements about the host register window (spec/20_memory.md): what a read returns, what a write changes,
which accesses stop the model, and that a write to CMD runs the word. -/

namespace Sys2Proof.Machine

/-! ## The registers of the window (R51) -/

/-- The offset of a register in the window (R51): the inverse of `portAt`. -/
def PortReg.offset (r : PortReg) : Nat :=
  match r with
  | .cmd => 0x00
  | .status => 0x04
  | .din => 0x08
  | .res => 0x10
  | .tlen => 0x18
  | .txt k => 0x40 + k

/-- The window has the register: of TXT, the 64 bytes only. -/
def PortReg.InWindow (r : PortReg) : Prop :=
  match r with
  | .txt k => k < 64
  | .cmd | .status | .din | .res | .tlen => True

theorem PortReg.offset_injective : Function.Injective PortReg.offset := by
  intro r q h
  cases r <;> cases q <;> simp [PortReg.offset] at h ⊢ <;> omega

theorem portAt_offset (r : PortReg) (h : r.InWindow) : portAt r.offset = some r := by
  cases r with
  | txt k => exact portAt_byte k h
  | cmd | status | din | res | tlen => rfl

/-- Outside the offsets of R51 the window has no register. -/
theorem portAt_eq_none (offset : Nat) (h0 : offset ≠ 0x00) (h4 : offset ≠ 0x04) (h8 : offset ≠ 0x08)
    (h10 : offset ≠ 0x10) (h18 : offset ≠ 0x18) (htxt : ¬(0x40 ≤ offset ∧ offset ≤ 0x7F)) : portAt offset = none := by
  rw [portAt, if_neg h0, if_neg h4, if_neg h8, if_neg h10, if_neg h18, if_neg htxt]

/-- The offsets 0x40 to 0x7F are those of the bytes of TXT. -/
theorem exists_txt_offset (offset : Nat) (h : 0x40 ≤ offset ∧ offset ≤ 0x7F) :
    ∃ k, (PortReg.txt k).InWindow ∧ offset = (PortReg.txt k).offset :=
  ⟨offset - 0x40, show offset - 0x40 < 64 by omega, show offset = 0x40 + (offset - 0x40) by omega⟩

/-! ## A step that serves a host access -/

section Access

variable {s : State} {rest : List HostEvent} {data : BitVec 64}

/-- A read and a write are served through the same check of the offset and the size. -/
theorem step_access {offset bits : Nat}
    (h : s.inputs = .read offset bits :: rest ∨ ∃ data, s.inputs = .write offset bits data :: rest) :
    ∃ act, step s = access offset bits act (s.advance rest) := by
  obtain h | ⟨data, h⟩ := h
  · exact ⟨_, (step_serves s _ rest h).trans (serve_read ..)⟩
  · exact ⟨_, (step_serves s _ rest h).trans (serve_write ..)⟩

theorem step_read (r : PortReg) (hr : r.InWindow) (hs : s.resetAsserted = false)
    (h : s.inputs = .read r.offset r.bits :: rest) :
    step s = .next ((s.advance rest).reply (portRead r (s.advance rest))) := by
  rw [step_serves s _ rest h, serve_read, access_served _ _ _ (s.advance rest) r hs (portAt_offset r hr) rfl]

theorem step_write (r : PortReg) (hr : r.InWindow) (hs : s.resetAsserted = false)
    (h : s.inputs = .write r.offset r.bits data :: rest) : step s = portWrite r data (s.advance rest) := by
  rw [step_serves s _ rest h, serve_write, access_served _ _ _ (s.advance rest) r hs (portAt_offset r hr) rfl]

end Access

/-! ## What a read returns (R51, R55) -/

theorem portRead_din (s : State) (x : Mag) (h : s.dinContents = some x) : portRead .din s = x := by
  simp [portRead, State.readDin, h]

theorem portRead_res (s : State) (x : Mag) (h : s.resContents = some x) : portRead .res s = x := by
  simp [portRead, State.readRes, h]

theorem portRead_txt (s : State) (k : Nat) (b : Byte) (h : s.txt.read k = some b) :
    portRead (.txt k) s = b.setWidth 64 := by
  simp [portRead, State.readTxt, h]

/-- Settles O11: each clause names a register of the window and what it reads as; the reply is then all that a read
adds. -/
theorem hostReadsReturnTheRegister : Obligations.HostReadsReturnTheRegister := by
  intro s offset bits rest hin hs x hx
  suffices ∃ r : PortReg, r.InWindow ∧ offset = r.offset ∧ bits = r.bits ∧ portRead r (s.advance rest) = x by
    obtain ⟨r, hr, rfl, rfl, rfl⟩ := this
    exact ⟨_, step_read r hr hs hin, rfl, rfl, hs, fun i => s.contents_congr _ rfl rfl i, rfl, rfl,
      ⟨rfl, fun _ => rfl⟩, rfl⟩
  obtain ⟨ho, hb, rfl⟩ | ⟨ho, hb, rfl⟩ | ⟨ho, hb, hd⟩ | ⟨ho, hb, hd⟩ | ⟨ho, hb, rfl⟩ | ⟨k, b, hk, ho, hb, hd, rfl⟩ := hx
  · exact ⟨.cmd, trivial, ho, hb, rfl⟩
  · exact ⟨.status, trivial, ho, hb, rfl⟩
  · exact ⟨.din, trivial, ho, hb, portRead_din _ x hd⟩
  · exact ⟨.res, trivial, ho, hb, portRead_res _ x hd⟩
  · exact ⟨.tlen, trivial, ho, hb, rfl⟩
  · exact ⟨.txt k, hk, ho, hb, portRead_txt _ k b hd⟩

/-! ## What a write changes (R51) -/

theorem Memory.read_write (m : Memory) (a k : Nat) (b : Byte) :
    (m.write a b).read k = if a = k then some b else m.read k := by
  split
  · next h => rw [← h, Memory.read_write_same]
  · next h => exact Memory.read_write_other m a k b (Ne.symm h)

/-- A write other than to CMD changes the register it is to, if that is DIN, TLEN or a byte of TXT, and nothing else. -/
theorem portWrite_changes (r : PortReg) (data : BitVec 64) (s : State) (hr : r ≠ .cmd) :
    ∃ t, portWrite r data s = .next t ∧ SamePort s t ∧ SameV s t ∧ t.resContents = s.resContents ∧
      t.status = s.status ∧ t.dinContents = (if r = .din then some data else s.dinContents) ∧
      t.tlen = (if r = .tlen then data.setWidth 7 else s.tlen) ∧
      ∀ k, t.txt.read k = (if r = .txt k then some (data.setWidth 8) else s.txt.read k) := by
  have sameV (t : State) (hv : t.v = s.v) (hm : t.marks.v = s.marks.v) : SameV s t := s.contents_congr t hv hm
  cases r with
  | cmd => exact absurd rfl hr
  | txt j =>
    exact ⟨_, rfl, ⟨rfl, rfl, rfl, rfl⟩, sameV _ rfl rfl, rfl, rfl, rfl, rfl, by simp [Memory.read_write]⟩
  | status | din | res | tlen =>
    exact ⟨_, rfl, ⟨rfl, rfl, rfl, rfl⟩, sameV _ rfl rfl, rfl, rfl, rfl, rfl, fun _ => rfl⟩

/-- Settles O12: each clause names a register of the window other than CMD, and an offset is that of one register only. -/
theorem hostWritesChangeTheRegister : Obligations.HostWritesChangeTheRegister := by
  intro s offset bits data rest hin hs hx
  suffices ∃ r : PortReg, r.InWindow ∧ offset = r.offset ∧ bits = r.bits ∧ r ≠ .cmd by
    obtain ⟨r, hr, rfl, rfl, hcmd⟩ := this
    obtain ⟨t, ht, ⟨hreset, hinputs, hreplies, -⟩, hv, hres, hstatus, hdin, htlen, htxt⟩ :=
      portWrite_changes r data (s.advance rest) hcmd
    have isAt (q : PortReg) : r = q ↔ r.offset = q.offset := PortReg.offset_injective.eq_iff.symm
    simp only [isAt] at hdin htlen htxt
    exact ⟨t, (step_write r hr hs hin).trans ht, hinputs, hreplies, hreset.trans hs, hv, hres, hstatus, hdin, htlen,
      htxt⟩
  obtain ⟨ho, hb⟩ | ⟨ho, hb⟩ | ⟨ho, hb⟩ | ⟨ho, hb⟩ | ⟨hlo, hhi, hb⟩ := hx
  · exact ⟨.status, trivial, ho, hb, nofun⟩
  · exact ⟨.din, trivial, ho, hb, nofun⟩
  · exact ⟨.res, trivial, ho, hb, nofun⟩
  · exact ⟨.tlen, trivial, ho, hb, nofun⟩
  · obtain ⟨k, hk, ho⟩ := exists_txt_offset offset ⟨hlo, hhi⟩
    exact ⟨.txt k, hk, ho, hb, nofun⟩

/-! ## Accesses that the map does not define (R51, R54, R315) -/

/-- Settles O13: the access stops at the check of its offset, or at that of its size. -/
theorem undefinedAccessesStop : Obligations.UndefinedAccessesStop := by
  intro s offset bits rest hin hs
  obtain ⟨act, hact⟩ := step_access hin
  rw [hact]
  constructor
  · rintro ⟨h0, h4, h8, h10, h18, htxt⟩
    exact access_undefined _ _ _ _ hs (portAt_eq_none offset h0 h4 h8 h10 h18 htxt)
  · intro hx
    suffices ∃ r : PortReg, r.InWindow ∧ offset = r.offset ∧ bits ≠ r.bits by
      obtain ⟨r, hr, rfl, hb⟩ := this
      exact access_wrongSize _ _ _ _ r hs (portAt_offset r hr) hb
    obtain ⟨ho | ho | ho, hb⟩ | ⟨ho | ho, hb⟩ | ⟨ho, hb⟩ := hx
    · exact ⟨.cmd, trivial, ho, hb⟩
    · exact ⟨.status, trivial, ho, hb⟩
    · exact ⟨.tlen, trivial, ho, hb⟩
    · exact ⟨.din, trivial, ho, hb⟩
    · exact ⟨.res, trivial, ho, hb⟩
    · obtain ⟨k, hk, ho⟩ := exists_txt_offset offset ho
      exact ⟨.txt k, hk, ho, hb⟩

/-! ## Two accesses in a row (R52, R58) -/

/-- Settles O16: the second step reads the register that the first has written. -/
theorem nextAccessSeesTheWrite : Obligations.NextAccessSeesTheWrite := by
  intro s rest data k hs
  refine ⟨fun hin => ?_, fun hk hin => ?_⟩
  · exact ⟨_, _, step_write .din trivial hs hin, step_read .din trivial hs rfl, rfl, rfl⟩
  · refine ⟨_, _, step_write (.txt k) hk hs hin, step_read (.txt k) hk hs rfl, ?_, rfl⟩
    exact congrArg (· :: s.replies) (portRead_txt _ k _ (Memory.read_write_same s.txt k _))

/-! ## A write to CMD (R52, R79) -/

theorem runCommand_of_decode_ok (w : Word) (i : Instr) (s : State) (h : decode w = .ok i) :
    runCommand w s = exec i s := by
  simp [runCommand, h]

theorem runCommand_of_decode_error (w : Word) (e : DecodeError) (s : State) (h : decode w = .error e) :
    runCommand w s = .next (s.raise .illegalCommand) := by
  simp [runCommand, h]

/-- Settles O9: a step that serves a write to CMD runs the word. -/
theorem stepRunsTheWrittenCommand : Obligations.StepRunsTheWrittenCommand := by
  intro s data rest hin hs
  have hrun : step s = runCommand (data.setWidth 32) (s.advance rest) := step_write .cmd trivial hs hin
  rw [hrun]
  exact ⟨fun i hi => runCommand_of_decode_ok _ i _ hi,
    fun e he => ⟨_, runCommand_of_decode_error _ e _ he, State.raise_fails _ _⟩⟩

end Sys2Proof.Machine

/-! SUPPORT. The statements about the encoding (spec/30_encoding.md R70 to R79): the decoder and the encoder are inverse
to each other, the decoder follows the printed opcode map, and every word outside the map raises IllegalCommand. -/

namespace Sys2Proof

/-! ## The bits a format marks "must be zero" (R72) -/

/-- The fields of R72 that a format marks "must be zero", each by its high and its low bit. -/
def zeroFields (f : Format) : List (Nat × Nat) :=
  match f with
  | .r3 => [(16, 0)]
  | .r2 => [(19, 0)]
  | .ri => [(19, 7)]
  | .c2 => [(25, 23), (16, 0)]
  | .s1 => [(25, 23), (19, 0)]
  | .si => [(25, 23), (19, 7)]
  | .ld => [(22, 15), (13, 7)]
  | .pr => [(22, 17), (13, 7)]
  | .fm => [(25, 23), (19, 17), (14, 0)]
  | .ff => [(25, 23), (19, 17), (14, 14)]
  | .im => [(25, 7)]
  | .im2 => [(25, 14)]
  | .n => [(25, 0)]

/-- Bit i stands in a field that the format marks "must be zero". -/
def mustBeZero (f : Format) (i : Nat) : Bool := (zeroFields f).any fun p => p.2 ≤ i && i ≤ p.1

theorem reservedZero_eq_all (f : Format) (w : Word) :
    reservedZero f w = (zeroFields f).all fun p => zeros w p.1 p.2 := by
  cases f <;> simp [reservedZero, zeroFields, Bool.and_assoc]

/-- The must-be-zero check of a format, bit by bit. -/
theorem reservedZero_iff (f : Format) (w : Word) :
    reservedZero f w = true ↔ ∀ i, mustBeZero f i = true → w.getLsbD i = false := by
  have order : ∀ p ∈ zeroFields f, p.2 ≤ p.1 := by cases f <;> decide
  simp only [reservedZero_eq_all, mustBeZero, List.all_eq_true, List.any_eq_true, Bool.and_eq_true, decide_eq_true_eq]
  constructor
  · rintro h i ⟨p, hp, hlo, hhi⟩
    exact (zeros_iff w _ _ (order p hp)).mp (h p hp) i hlo hhi
  · intro h p hp
    exact (zeros_iff w _ _ (order p hp)).mpr fun i hlo hhi => h i ⟨p, hp, hlo, hhi⟩

/-! ## A word is made of its fields (R71, R72) -/

/-- The fields of R71 below the opcode, each by its low bit and its width. -/
def operandFields : List (Nat × Nat) := [(23, 3), (20, 3), (17, 3), (15, 2), (14, 1), (7, 7), (0, 7)]

/-- A field that a format reserves from its low bit on is reserved whole. -/
theorem mustBeZero_field (f : Format) :
    ∀ p ∈ operandFields, mustBeZero f p.1 = true → ∀ j < p.2, mustBeZero f (p.1 + j) = true := by
  cases f <;> decide

/-- A reserved field of a word that passes the format's check is 0. -/
theorem reservedField_eq_zero {f : Format} {w : Word} {lo n : Nat} (hz : reservedZero f w = true)
    (hf : (lo, n) ∈ operandFields) (hlo : mustBeZero f lo = true) : w.extractLsb' lo n = 0#n := by
  apply BitVec.eq_of_getLsbD_eq
  intro j hj
  simp [(reservedZero_iff f w).mp hz _ (mustBeZero_field f _ hf hlo j hj)]

/-- The word of an opcode and a format with the fields of w, and zeros in the fields that the format reserves. -/
def canonical (op : BitVec 6) (f : Format) (w : Word) : Word :=
  word op (if mustBeZero f 23 then 0 else rdOf w) (if mustBeZero f 20 then 0 else rs1Of w)
    (if mustBeZero f 17 then 0 else rs2Of w) (if mustBeZero f 15 then 0#2 else rxOf w)
    (if mustBeZero f 14 then false else sOf w) (if mustBeZero f 7 then 0#7 else bOf w)
    (if mustBeZero f 0 then 0#7 else aOf w)

/-- The fields of R71 cover the word. -/
theorem word_fields (w : Word) :
    word (opOf w) (rdOf w) (rs1Of w) (rs2Of w) (rxOf w) (sOf w) (bOf w) (aOf w) = w := by
  have hs : BitVec.ofBool (w.getLsbD 14) = w.extractLsb' 14 1 := by
    apply BitVec.eq_of_getLsbD_eq
    simp +contextual
  show w.extractLsb' 26 6 ++ w.extractLsb' 23 3 ++ w.extractLsb' 20 3 ++ w.extractLsb' 17 3 ++ w.extractLsb' 15 2 ++
    BitVec.ofBool (w.getLsbD 14) ++ w.extractLsb' 7 7 ++ w.extractLsb' 0 7 = w
  simp only [hs, BitVec.extractLsb'_append_extractLsb'_eq_extractLsb', BitVec.extractLsb'_eq_self]

theorem canonical_eq {f : Format} {w : Word} (hz : reservedZero f w = true) : canonical (opOf w) f w = w := by
  have hrd : mustBeZero f 23 = true → rdOf w = 0 := fun h =>
    congrArg BitVec.toFin (reservedField_eq_zero hz (by decide) h)
  have hrs1 : mustBeZero f 20 = true → rs1Of w = 0 := fun h =>
    congrArg BitVec.toFin (reservedField_eq_zero hz (by decide) h)
  have hrs2 : mustBeZero f 17 = true → rs2Of w = 0 := fun h =>
    congrArg BitVec.toFin (reservedField_eq_zero hz (by decide) h)
  have hrx : mustBeZero f 15 = true → rxOf w = 0#2 := reservedField_eq_zero hz (by decide)
  have hs : mustBeZero f 14 = true → sOf w = false := (reservedZero_iff f w).mp hz 14
  have hb : mustBeZero f 7 = true → bOf w = 0#7 := reservedField_eq_zero hz (by decide)
  have ha : mustBeZero f 0 = true → aOf w = 0#7 := reservedField_eq_zero hz (by decide)
  have keep {α : Type} {c : Prop} [Decidable c] {x z : α} (h : c → x = z) : (if c then z else x) = x := by
    split
    · next hc => exact (h hc).symm
    · rfl
  rw [canonical, keep hrd, keep hrs1, keep hrs2, keep hrx, keep hs, keep hb, keep ha, word_fields]

/-! ## The command a word decodes to, and the fields it has -/

theorem need_eq_ok_iff (f : Format) (w : Word) (i j : Instr) :
    need f w j = .ok i ↔ reservedZero f w = true ∧ j = i := by
  unfold need
  split <;> simp_all

theorem radixOf_eq_some_iff (b : BitVec 2) (rx : Radix) : radixOf b = some rx ↔ radixBits rx = b := by
  revert b
  cases rx <;> decide

theorem needRadix_eq_ok_iff (f : Format) (w : Word) (mk : Radix → Instr) (i : Instr) :
    needRadix f w mk = .ok i ↔
      reservedZero f w = true ∧ rxAllowed f w = true ∧ ∃ rx, radixBits rx = rxOf w ∧ mk rx = i := by
  simp only [← radixOf_eq_some_iff]
  unfold needRadix
  split
  · split
    · cases radixOf (rxOf w) <;> simp_all
    · simp_all
  · simp_all

/-- All that the decoder has checked of a word w when it answers the command i, and that it has taken i's operands from
w's fields. -/
structure DecodesTo (w : Word) (i : Instr) : Prop where
  op : opOf w = i.head.2.1
  zero : reservedZero i.head.2.2 w = true
  radix : rxAllowed i.head.2.2 w = true
  fields : encode i = canonical i.head.2.1 i.head.2.2 w
  wf : i.wellFormed = true

theorem DecodesTo.encode_eq {w : Word} {i : Instr} (h : DecodesTo w i) : encode i = w := by
  rw [h.fields, ← h.op, canonical_eq h.zero]

/-- A radix that PARSE has makes a well-formed PARSE (R78). -/
theorem parse_wellFormed {w : Word} {rx : Radix} (hx : rxAllowed .pr w = true) (hrx : radixBits rx = rxOf w) (rd : VReg)
    (a : Imm) (s : Bool) : (Instr.parse rd rx a s).wellFormed = true := by
  cases rx with
  | dec | hex => rfl
  | bin => simp [rxAllowed, ← hrx, radixBits] at hx

/-- What the decoder has checked when it answers a command: it goes through the opcodes, and asks for zeros in the
reserved fields and, of PARSE, FMT and FMTF, for a radix. -/
theorem decodesTo_of_decode {w : Word} {i : Instr} (h : decode w = .ok i) : DecodesTo w i := by
  have op {n : BitVec 6} (hop : (opOf w).toNat = n.toNat) : opOf w = n := BitVec.eq_of_toNat_eq hop
  unfold decode at h
  split at h
  -- The reserved opcodes answer no command; PARSE, FMT and FMTF come second and 29th and 30th, with a radix.
  case h_35 => cases h
  case h_2 hop =>
    obtain ⟨hz, hx, rx, hrx, rfl⟩ := (needRadix_eq_ok_iff ..).mp h
    exact ⟨op hop, hz, hx, by rw [encode, hrx]; rfl, parse_wellFormed hx hrx ..⟩
  case h_29 hop | h_30 hop =>
    obtain ⟨hz, hx, rx, hrx, rfl⟩ := (needRadix_eq_ok_iff ..).mp h
    exact ⟨op hop, hz, hx, by rw [encode, hrx]; rfl, rfl⟩
  all_goals
    next hop =>
    obtain ⟨hz, rfl⟩ := (need_eq_ok_iff ..).mp h
    exact ⟨op hop, hz, rfl, rfl, rfl⟩

/-- Settles O2: the decoder has taken the operands from the word's own fields, and the other bits are 0. -/
theorem encodingADecodedWordGivesItBack : Obligations.EncodingADecodedWordGivesItBack :=
  fun _ _ h => ⟨(decodesTo_of_decode h).encode_eq, (decodesTo_of_decode h).wf⟩

/-- The word of every command has the command's opcode, and zeros in the fields its format reserves. -/
theorem opcodeAndFormat (i : Instr) : Laws.OpcodeAndFormat.Statement i := by
  open Laws.OpcodeAndFormat in
  cases i
  exacts [ldv .., parse .., mov .., rdmag .., rdmagw .., rdwid .., rdsgn .., trunc .., sat .., expand .., setw ..,
    and .., or .., xor .., not .., shl .., shr .., revb .., getb .., add .., sub .., cmp .., eq .., ne .., lt .., le ..,
    gt .., ge .., fmt .., fmtf .., mask .., maskf .., hex2dec, clrst]

/-- The word of a well-formed command has a radix that the command has (R78). -/
theorem rxAllowed_encode (i : Instr) (hw : i.wellFormed = true) : rxAllowed i.head.2.2 (encode i) = true := by
  cases i
  case parse rd rx a s =>
    simp only [Instr.head, encode, rxAllowed, rxOf_word]
    cases rx
    case bin => cases hw
    all_goals rfl
  case fmt rs1 rx | fmtf rs1 rx a b =>
    simp only [Instr.head, encode, rxAllowed, rxOf_word]
    cases rx <;> rfl
  all_goals rfl

/-- Settles O1: the decoder finds the command's opcode, its checks succeed, and each field holds the operand put
there. -/
theorem decodingAnEncodedCommandGivesItBack : Obligations.DecodingAnEncodedCommandGivesItBack := by
  intro i hw
  obtain ⟨hop, hz⟩ := opcodeAndFormat i
  have hx := rxAllowed_encode i hw
  cases i
  case parse | fmt | fmtf =>
    rw [decode, hop]
    refine (needRadix_eq_ok_iff ..).mpr ⟨hz, hx, _, (rxOf_word ..).symm, ?_⟩
    simp only [encode, rdOf_word, rs1Of_word, sOf_word, aOf_word, bOf_word]
  all_goals
    rw [decode, hop]
    refine (need_eq_ok_iff ..).mpr ⟨hz, ?_⟩
    simp only [encode, rdOf_word, rs1Of_word, rs2Of_word, sOf_word, aOf_word, bOf_word]

/-! ## The opcode map (R75) -/

/-- What a row of the map says of the commands that it stands for. -/
def OpcodeRow.head (row : OpcodeRow) : String × BitVec 6 × Format := (row.mnemonic, row.op, row.format)

/-- Every command stands in the map. -/
theorem exists_row (i : Instr) : ∃ row ∈ opcodeTable, i.head = row.head := by
  cases i <;> (simp only [Instr.head]; decide)

/-- The map gives no opcode twice (R75). -/
theorem row_eq_of_op : ∀ row ∈ opcodeTable, ∀ row' ∈ opcodeTable, row.op = row'.op → row = row' := by decide

/-- The bits below the opcode that a row of format f fixes to 0: those of the reserved fields and, for PR, `rx[1]`
(R78). -/
def fixedZero (f : Format) (i : Nat) : Bool := mustBeZero f i || (f == .pr && i == 16)

theorem row_fixes : ∀ row ∈ opcodeTable, ∀ i < 32,
    row.mask.getLsbD i = (fixedZero row.format i || decide (26 ≤ i)) := by decide

theorem row_value : ∀ row ∈ opcodeTable, row.value = row.op ++ 0#26 := by decide

theorem fixedZero_lt {f : Format} {i : Nat} (h : fixedZero f i = true) : i < 26 := by
  cases f <;> simp [fixedZero, mustBeZero, zeroFields] at h <;> omega

/-- The match and mask columns of a row compare the opcode, and ask for 0 in every bit that the row fixes to 0. -/
theorem and_mask_eq_value_iff {row : OpcodeRow} (hrow : row ∈ opcodeTable) (w : Word) :
    w &&& row.mask = row.value ↔ opOf w = row.op ∧ ∀ i, fixedZero row.format i = true → w.getLsbD i = false := by
  have mask := row_fixes row hrow
  have op (j : Nat) (hj : j < 6) : (opOf w).getLsbD j = w.getLsbD (26 + j) := by simp [opOf, hj]
  have value (i : Nat) : row.value.getLsbD i = if i < 26 then false else row.op.getLsbD (i - 26) := by
    rw [row_value row hrow, BitVec.getLsbD_append, BitVec.getLsbD_zero]
  constructor
  · intro h
    have bit (i : Nat) : (w.getLsbD i && row.mask.getLsbD i) = row.value.getLsbD i := by rw [← h, BitVec.getLsbD_and]
    refine ⟨BitVec.eq_of_getLsbD_eq fun j hj => ?_, fun i hi => ?_⟩
    · have := bit (26 + j)
      simpa [mask (26 + j) (by omega), value, op j hj] using this
    · have := bit i
      have hlt := fixedZero_lt hi
      simpa [mask i (by omega), value, hi, hlt] using this
  · rintro ⟨hop, hz⟩
    apply BitVec.eq_of_getLsbD_eq
    intro i hi
    rw [BitVec.getLsbD_and, mask i hi, value, ← hop]
    split
    · next hlt => cases hf : fixedZero row.format i <;> simp [hz, hf, hlt]
    · next hge => simp [op (i - 26) (by omega), Nat.add_sub_cancel' (by omega : 26 ≤ i), (by omega : 26 ≤ i)]

/-- A row's own test, in the decoder's terms. -/
theorem spells_iff {row : OpcodeRow} (hrow : row ∈ opcodeTable) (w : Word) :
    row.spells w = true ↔ opOf w = row.op ∧ reservedZero row.format w = true ∧ rxAllowed row.format w = true := by
  rw [OpcodeRow.spells, Bool.and_eq_true, beq_iff_eq, and_mask_eq_value_iff hrow, and_assoc, reservedZero_iff]
  refine and_congr_right fun _ => and_congr_left fun hx =>
    ⟨fun h i hi => h i (by simp [fixedZero, hi]), fun h i hi => ?_⟩
  obtain hi | ⟨hf, rfl⟩ : mustBeZero row.format i = true ∨ row.format = .pr ∧ i = 16 := by simpa [fixedZero] using hi
  · exact h i hi
  · have hbit : (rxOf w).getLsbD 1 = w.getLsbD 16 := by simp [rxOf]
    obtain hrx | hrx : rxOf w = 0b00#2 ∨ rxOf w = 0b01#2 := by simpa [rxAllowed, hf] using hx
    all_goals rw [← hbit, hrx]; rfl

theorem spells_of_decode {w : Word} {i : Instr} {row : OpcodeRow} (hrow : row ∈ opcodeTable) (h : decode w = .ok i)
    (hi : i.head = row.head) : row.spells w = true := by
  obtain ⟨hop, hz, hx, -, -⟩ := decodesTo_of_decode h
  rw [hi] at hop hz hx
  exact (spells_iff hrow w).mpr ⟨hop, hz, hx⟩

theorem needRadix_of_allowed {f : Format} {w : Word} (hf : f = .pr ∨ f = .fm ∨ f = .ff) (hz : reservedZero f w = true)
    (hx : rxAllowed f w = true) (mk : Radix → Instr) : ∃ rx, needRadix f w mk = .ok (mk rx) := by
  suffices ∃ rx, radixBits rx = rxOf w by
    obtain ⟨rx, hrx⟩ := this
    exact ⟨rx, (needRadix_eq_ok_iff ..).mpr ⟨hz, hx, rx, hrx, rfl⟩⟩
  have selects : ∀ b : BitVec 2, b ≠ 0b11#2 → b ∈ [Radix.dec, .hex, .bin].map radixBits := by decide
  have hne : rxOf w ≠ 0b11#2 := by
    intro h
    obtain rfl | rfl | rfl := hf <;> simp [rxAllowed, h] at hx
  obtain ⟨rx, -, hrx⟩ := List.mem_map.mp (selects _ hne)
  exact ⟨rx, hrx⟩

/-- A word that passes a row's test has a command of that row: the decoder asks for no more than the test does. -/
theorem decode_of_spells {w : Word} {row : OpcodeRow} (hrow : row ∈ opcodeTable) (h : row.spells w = true) :
    ∃ i, decode w = .ok i ∧ i.head = row.head := by
  obtain ⟨hop, hz, hx⟩ := (spells_iff hrow w).mp h
  have ofNeed {d : Except DecodeError Instr} {i : Instr} (hd : d = need row.format w i) (hi : i.head = row.head) :
      ∃ i, d = .ok i ∧ i.head = row.head :=
    ⟨i, hd.trans ((need_eq_ok_iff ..).mpr ⟨hz, rfl⟩), hi⟩
  have ofRadix {d : Except DecodeError Instr} {mk : Radix → Instr} (hd : d = needRadix row.format w mk)
      (hf : row.format = .pr ∨ row.format = .fm ∨ row.format = .ff) (hi : ∀ rx, (mk rx).head = row.head) :
      ∃ i, d = .ok i ∧ i.head = row.head := by
    obtain ⟨rx, hrx⟩ := needRadix_of_allowed hf hz hx mk
    exact ⟨mk rx, hd.trans hrx, hi rx⟩
  rw [decode, hop]
  clear h hop hz hx
  fin_cases hrow
  any_goals exact ofNeed rfl rfl
  -- The rows of PARSE, FMT and FMTF are left: those have a radix.
  all_goals exact ofRadix rfl (by decide) fun _ => rfl

/-- Settles O3: the row's test is the decoder's own checks, put into a mask. -/
theorem decodingFollowsTheOpcodeMap : Obligations.DecodingFollowsTheOpcodeMap :=
  fun _ _ hrow => ⟨decode_of_spells hrow, fun ⟨_, hd, hi⟩ => spells_of_decode hrow hd hi⟩

/-! ## Words that spell no command (R76 to R79) -/

theorem runCommand_illegal {w : Word} (h : ∀ i, decode w ≠ .ok i) (s : Machine.State) :
    ∃ t, Machine.runCommand w s = .next t ∧ Machine.Fails .illegalCommand s t := by
  cases hd : decode w with
  | ok i => exact absurd hd (h i)
  | error e => exact ⟨_, Machine.runCommand_of_decode_error w e s hd, s.raise_fails _⟩

/-- Settles O4: the command that a word decodes to has a row, and a second row would have the same opcode. -/
theorem everyWordIsOneCommandOrIllegal : Obligations.EveryWordIsOneCommandOrIllegal := by
  intro w s
  by_cases h : ∃ i, decode w = .ok i
  · left
    obtain ⟨i, hi⟩ := h
    obtain ⟨row, hrow, hhead⟩ := exists_row i
    have hs := spells_of_decode hrow hi hhead
    refine ⟨row, ⟨hrow, hs⟩, fun row' ⟨hrow', hs'⟩ => row_eq_of_op row' hrow' row hrow ?_⟩
    exact ((spells_iff hrow' w).mp hs').1.symm.trans ((spells_iff hrow w).mp hs).1
  · right
    refine ⟨fun row hrow => Bool.eq_false_iff.mpr fun hs => h ?_, runCommand_illegal (fun i hi => h ⟨i, hi⟩) s⟩
    obtain ⟨i, hi, -⟩ := decode_of_spells hrow hs
    exact ⟨i, hi⟩

/-- The map has no row for the opcodes listed as reserved (R76). -/
theorem row_op_assigned : ∀ row ∈ opcodeTable,
    ¬(row.op.toNat = 0x00 ∨ (0x0C ≤ row.op.toNat ∧ row.op.toNat ≤ 0x0F) ∨ (0x1A ≤ row.op.toNat ∧ row.op.toNat ≤ 0x1F) ∨
      row.op.toNat = 0x27 ∨ (0x2A ≤ row.op.toNat ∧ row.op.toNat ≤ 0x2F) ∨
      (0x33 ≤ row.op.toNat ∧ row.op.toNat ≤ 0x3E)) := by decide

/-- Settles O5: a word that decodes passes the test of a row of its opcode, which no reserved word does. -/
theorem reservedEncodingsRaiseIllegalCommand : Obligations.ReservedEncodingsRaiseIllegalCommand := by
  intro w s hres
  refine runCommand_illegal (fun i hi => ?_) s
  obtain ⟨row, hrow, hhead⟩ := exists_row i
  obtain ⟨hop, hz, hx⟩ := (spells_iff hrow w).mp (spells_of_decode hrow hi hhead)
  have hassigned := row_op_assigned row hrow
  rw [← hop] at hassigned
  iterate 6
    obtain hres | hres := hres
    · omega
  obtain ⟨row', hrow', hop', hbad⟩ := hres
  obtain rfl := row_eq_of_op row hrow row' hrow' (hop.symm.trans hop')
  simp [hz, hx] at hbad

/-- Settles O6: the decoder evaluates to the command or the reason, word by word. -/
theorem wordsOfTheSpecDecode : Obligations.WordsOfTheSpecDecode := by
  unfold Obligations.WordsOfTheSpecDecode
  decide

end Sys2Proof

/-! SUPPORT. The statements about the assembler (spec/30_encoding.md R90, R91): which command a mnemonic and its operands
spell, how an operand's text reads, and how a line is cut. -/

namespace Sys2Proof.Machine

/-! ## The row of a mnemonic -/

/-- No mnemonic has two rows. -/
theorem asmForms_distinct : asmForms.Pairwise fun f g => f.1.toList ≠ g.1.toList := by decide

theorem find?_of_mem {β : Type} {l : List (String × β)} {f : String × β}
    (hl : l.Pairwise fun f g => f.1.toList ≠ g.1.toList) (hf : f ∈ l) :
    l.find? (fun g => g.1.toList == f.1.toList) = some f := by
  induction hl with
  | nil => cases hf
  | cons hg _ ih =>
    obtain rfl | hf := List.mem_cons.mp hf
    · exact List.find?_cons_of_pos (beq_self_eq_true _)
    · rw [List.find?_cons_of_neg (by simpa using hg _ hf), ih hf]

/-- A mnemonic's operands spell what its row makes of them. -/
theorem assembleWords_of_mem {name : String} {form : List (List Char) → Option Instr} (hrow : (name, form) ∈ asmForms)
    (ops : List (List Char)) : assembleWords name.toList ops = form ops :=
  assembleWords_row name form ops (find?_of_mem asmForms_distinct hrow)

/-- A mnemonic and its operands spell the command that the form of its row answers. -/
theorem spells {name : String} {form : List (List Char) → Option Instr} {ops : List (List Char)} {i : Instr}
    (h : form ops = some i) (hrow : (name, form) ∈ asmForms := by repeat constructor) : SpellsCommand name ops i :=
  spellsCommand_of_words name ops i ((assembleWords_of_mem hrow ops).trans h)

/-- Operands of which a form makes the same are spelled alike. -/
theorem expands {name : String} {form : List (List Char) → Option Instr} {short full : List (List Char)}
    (h : form short = form full) (hrow : (name, form) ∈ asmForms := by repeat constructor) : Expands name short full :=
  expands_of_words name short full <| by rw [assembleWords_of_mem hrow, assembleWords_of_mem hrow, h]

/-! ## The operand lists of R90 -/

section Full

variable {d l r u w v x : List Char} {rd rs1 rs2 : VReg} {a b : Imm} {rx : Radix} {sg : Bool}

theorem asmLdv_full (hd : asmReg d = some rd) (hw : asmImm w = some a) (hu : asmSign u = some sg) :
    asmLdv [d, w, u] = some (.ldv rd a sg) := by simp [asmLdv, hd, hw, hu]

theorem asmParseRadix_of_ne (hx : asmRadix x = some rx) (hne : rx ≠ .bin) : asmParseRadix x = some rx := by
  unfold asmParseRadix
  rw [hx]
  cases rx <;> trivial

theorem asmParse_full (hd : asmReg d = some rd) (hx : asmParseRadix x = some rx) (hw : asmImm w = some a)
    (hu : asmSign u = some sg) : asmParse [d, x, w, u] = some (.parse rd rx a sg) := by simp [asmParse, hd, hx, hw, hu]

theorem asmNone_full (i : Instr) : asmNone i [] = some i := rfl

theorem asmReg1_full (mk : VReg → Instr) (hl : asmReg l = some rs1) : asmReg1 mk [l] = some (mk rs1) := by
  simp [asmReg1, hl]

theorem asmReg2_full (mk : VReg → VReg → Instr) (hl : asmReg l = some rs1) (hr : asmReg r = some rs2) :
    asmReg2 mk [l, r] = some (mk rs1 rs2) := by simp [asmReg2, hl, hr]

theorem asmUnary_full (mk : VReg → VReg → Instr) (hd : asmReg d = some rd) (hl : asmReg l = some rs1) :
    asmUnary mk [d, l] = some (mk rd rs1) := asmReg2_full mk hd hl

theorem asmBinary_full (mk : VReg → VReg → VReg → Instr) (hd : asmReg d = some rd) (hl : asmReg l = some rs1)
    (hr : asmReg r = some rs2) : asmBinary mk [d, l, r] = some (mk rd rs1 rs2) := by simp [asmBinary, hd, hl, hr]

theorem asmRegImm_full (mk : VReg → Imm → Instr) (hl : asmReg l = some rs1) (hw : asmImm w = some a) :
    asmRegImm mk [l, w] = some (mk rs1 a) := by simp [asmRegImm, hl, hw]

theorem asmShift_full (mk : VReg → VReg → Imm → Instr) (hd : asmReg d = some rd) (hl : asmReg l = some rs1)
    (hw : asmImm w = some a) : asmShift mk [d, l, w] = some (mk rd rs1 a) := by simp [asmShift, hd, hl, hw]

theorem asmInPlace_full (mk : VReg → VReg → Imm → Instr) (hd : asmReg d = some rd) (hl : asmReg l = some rs1)
    (hw : asmImm w = some a) : asmInPlace mk [d, l, w] = some (mk rd rs1 a) := asmShift_full mk hd hl hw

theorem asmFmt_full (hl : asmReg l = some rs1) (hx : asmRadix x = some rx) : asmFmt [l, x] = some (.fmt rs1 rx) := by
  simp [asmFmt, hl, hx]

theorem asmFmtf_full (hl : asmReg l = some rs1) (hx : asmRadix x = some rx) (hw : asmImm w = some a)
    (hv : asmImm v = some b) : asmFmtf [l, x, w, v] = some (.fmtf rs1 rx a b) := by simp [asmFmtf, hl, hx, hw, hv]

theorem asmMask_full (hw : asmImm w = some a) : asmMask [w] = some (.mask a) := by simp [asmMask, hw]

theorem asmMaskf_full (hv : asmImm v = some b) (hw : asmImm w = some a) : asmMaskf [v, w] = some (.maskf b a) := by
  simp [asmMaskf, hv, hw]

end Full

/-! ## The short operand lists of R91 -/

section Short

variable (d r w x m l : List Char)

theorem asmLdv_short : asmLdv [d] = asmLdv [d, ['6', '4'], ['u']] := rfl

theorem asmLdv_unsigned : asmLdv [d, w] = asmLdv [d, w, ['u']] := rfl

theorem asmParse_unsigned : asmParse [d, x, w] = asmParse [d, x, w, ['u']] := rfl

theorem asmInPlace_short (mk : VReg → VReg → Imm → Instr) : asmInPlace mk [d, w] = asmInPlace mk [d, d, w] := rfl

theorem asmUnary_short (mk : VReg → VReg → Instr) : asmUnary mk [d] = asmUnary mk [d, d] := rfl

theorem asmBinary_short (mk : VReg → VReg → VReg → Instr) : asmBinary mk [d, r] = asmBinary mk [d, d, r] := rfl

theorem asmFmt_decimal : asmFmt [d] = asmFmt [d, ['d']] := rfl

theorem asmFmtf_decimal : asmFmtf [d, m, l] = asmFmtf [d, ['d'], m, l] := rfl

end Short

/-- Settles O7: on the short operands each form does what it does on the full ones. -/
theorem pseudoInstructionsExpand : Obligations.PseudoInstructionsExpand := by
  refine ⟨fun d r w x m l => ?_, fun d r w x l rd rs a b rx hd hr hw hl hx => ?_⟩
  · have inPlace (mk) := asmInPlace_short d w mk
    have binary (mk) := asmBinary_short d r mk
    exact ⟨expands (asmLdv_short d), expands (asmLdv_unsigned d w), expands (asmParse_unsigned d w x),
      expands (inPlace .trunc), expands (inPlace .sat), expands (inPlace .expand), expands (inPlace .setw),
      expands (inPlace .revb), expands (asmUnary_short d .not), expands (binary .and), expands (binary .or),
      expands (binary .xor), expands (binary .add), expands (binary .sub), expands (asmFmt_decimal d),
      expands (asmFmtf_decimal d m l)⟩
  · have inPlace (mk) : asmInPlace mk [d, w] = some (mk rd rd a) :=
      (asmInPlace_short d w mk).trans (asmInPlace_full mk hd hd hw)
    have binary (mk) : asmBinary mk [d, r] = some (mk rd rd rs) :=
      (asmBinary_short d r mk).trans (asmBinary_full mk hd hd hr)
    exact ⟨spells ((asmLdv_short d).trans (asmLdv_full hd rfl rfl)),
      spells ((asmLdv_unsigned d w).trans (asmLdv_full hd hw rfl)),
      fun hne => spells ((asmParse_unsigned d w x).trans (asmParse_full hd (asmParseRadix_of_ne hx hne) hw rfl)),
      spells (inPlace .trunc), spells (inPlace .sat), spells (inPlace .expand), spells (inPlace .setw),
      spells (inPlace .revb), spells ((asmUnary_short d .not).trans (asmUnary_full .not hd hd)), spells (binary .and),
      spells (binary .or), spells (binary .xor), spells (binary .add), spells (binary .sub),
      spells ((asmFmt_decimal d).trans (asmFmt_full hd rfl)),
      spells ((asmFmtf_decimal d w l).trans (asmFmtf_full hd rfl hw hl))⟩

/-! ## What a form accepts -/

/-- If there is a command at all, it has P. -/
def Gives (P : Instr → Prop) (o : Option Instr) : Prop := ∀ i, o = some i → P i

section Gives

variable {P : Instr → Prop}

@[simp] theorem gives_none : Gives P none := nofun

@[simp] theorem gives_some {i : Instr} : Gives P (some i) ↔ P i := by simp [Gives]

@[simp] theorem gives_bind {α : Type} {o : Option α} {f : α → Option Instr} :
    Gives P (o.bind f) ↔ ∀ y, o = some y → Gives P (f y) := by
  cases o <;> simp [Gives]

end Gives

/-- The form answers a command only for a number of operands among the counts, and only commands that have P. -/
def Accepts (counts : List Nat) (P : Instr → Prop) (form : List (List Char) → Option Instr) : Prop :=
  ∀ ops, Gives (fun i => ops.length ∈ counts ∧ P i) (form ops)

section Accepts

variable {P : Instr → Prop}

theorem asmLdv_accepts (h : ∀ rd a s, P (.ldv rd a s)) : Accepts [1, 2, 3] P asmLdv := by
  intro ops
  unfold asmLdv
  split <;> simp [h]

theorem asmParseRadix_ne_bin {x : List Char} {rx : Radix} (hx : asmParseRadix x = some rx) : rx ≠ .bin := by
  unfold asmParseRadix at hx
  split at hx
  · cases hx
  · next hne => exact fun h => hne (h ▸ hx)

theorem asmParse_accepts (h : ∀ rd rx a s, rx ≠ .bin → P (.parse rd rx a s)) : Accepts [3, 4] P asmParse := by
  have parse {x rx} (hx : asmParseRadix x = some rx) (rd a s) : P (.parse rd rx a s) :=
    h rd rx a s (asmParseRadix_ne_bin hx)
  intro ops
  unfold asmParse
  split
  · simp only [Option.bind_eq_bind, Option.pure_def, gives_bind, gives_some]
    exact fun _ _ _ hx _ _ => ⟨by simp, parse hx ..⟩
  · simp only [Option.bind_eq_bind, Option.pure_def, gives_bind, gives_some]
    exact fun _ _ _ hx _ _ _ _ => ⟨by simp, parse hx ..⟩
  · exact gives_none

theorem asmNone_accepts {i : Instr} (h : P i) : Accepts [0] P (asmNone i) := by
  intro ops
  unfold asmNone
  split <;> simp [h]

theorem asmReg1_accepts {mk : VReg → Instr} (h : ∀ l, P (mk l)) : Accepts [1] P (asmReg1 mk) := by
  intro ops
  unfold asmReg1
  split <;> simp [h]

theorem asmReg2_accepts {mk : VReg → VReg → Instr} (h : ∀ l r, P (mk l r)) : Accepts [2] P (asmReg2 mk) := by
  intro ops
  unfold asmReg2
  split <;> simp [h]

theorem asmUnary_accepts {mk : VReg → VReg → Instr} (h : ∀ d l, P (mk d l)) : Accepts [1, 2] P (asmUnary mk) := by
  intro ops
  unfold asmUnary asmReg2
  split
  · simp [h]
  · split <;> simp [h]

theorem asmBinary_accepts {mk : VReg → VReg → VReg → Instr} (h : ∀ d l r, P (mk d l r)) :
    Accepts [2, 3] P (asmBinary mk) := by
  intro ops
  unfold asmBinary
  split <;> simp [h]

theorem asmRegImm_accepts {mk : VReg → Imm → Instr} (h : ∀ l a, P (mk l a)) : Accepts [2] P (asmRegImm mk) := by
  intro ops
  unfold asmRegImm
  split <;> simp [h]

theorem asmShift_accepts {mk : VReg → VReg → Imm → Instr} (h : ∀ d l a, P (mk d l a)) :
    Accepts [3] P (asmShift mk) := by
  intro ops
  unfold asmShift
  split <;> simp [h]

theorem asmInPlace_accepts {mk : VReg → VReg → Imm → Instr} (h : ∀ d l a, P (mk d l a)) :
    Accepts [2, 3] P (asmInPlace mk) := by
  intro ops
  unfold asmInPlace asmShift
  split
  · simp [h]
  · split <;> simp [h]

theorem asmFmt_accepts (h : ∀ l rx, P (.fmt l rx)) : Accepts [1, 2] P asmFmt := by
  intro ops
  unfold asmFmt
  split <;> simp [h]

theorem asmFmtf_accepts (h : ∀ l rx a b, P (.fmtf l rx a b)) : Accepts [3, 4] P asmFmtf := by
  intro ops
  unfold asmFmtf
  split <;> simp [h]

theorem asmMask_accepts (h : ∀ a, P (.mask a)) : Accepts [1] P asmMask := by
  intro ops
  unfold asmMask
  split <;> simp [h]

theorem asmMaskf_accepts (h : ∀ b a, P (.maskf b a)) : Accepts [2] P asmMaskf := by
  intro ops
  unfold asmMaskf
  split <;> simp [h]

end Accepts

/-- The numbers of operands that R90 and R91 give a mnemonic. -/
def operandCounts (name : String) : List Nat :=
  if name ∈ ["HEX2DEC", "CLRST"] then [0]
  else if name ∈ ["RDMAG", "RDWID", "RDSGN", "MASK"] then [1]
  else if name ∈ ["NOT", "FMT"] then [1, 2]
  else if name ∈ ["MOV", "RDMAGW", "GETB", "MASKF", "CMP", "EQ", "NE", "LT", "LE", "GT", "GE"] then [2]
  else if name ∈ ["TRUNC", "SAT", "EXPAND", "SETW", "REVB", "AND", "OR", "XOR", "ADD", "SUB"] then [2, 3]
  else if name = "LDV" then [1, 2, 3]
  else if name ∈ ["SHL", "SHR"] then [3]
  else if name ∈ ["PARSE", "FMTF"] then [3, 4]
  else []

/-- A well-formed command of the mnemonic. -/
def Named (name : String) (i : Instr) : Prop := i.wellFormed = true ∧ i.head.1 = name

/-- Each form accepts the operand counts of its mnemonic, and answers only well-formed commands of that mnemonic. -/
theorem asmForms_accept : ∀ f ∈ asmForms, Accepts (operandCounts f.1) (Named f.1) f.2 := by
  simp only [asmForms, List.cons_append, List.nil_append, List.forall_mem_cons]
  exact ⟨asmLdv_accepts fun _ _ _ => ⟨rfl, rfl⟩, asmParse_accepts fun _ _ _ _ hne => ⟨bne_iff_ne.mpr hne, rfl⟩,
    asmReg2_accepts fun _ _ => ⟨rfl, rfl⟩, asmReg1_accepts fun _ => ⟨rfl, rfl⟩, asmRegImm_accepts fun _ _ => ⟨rfl, rfl⟩,
    asmReg1_accepts fun _ => ⟨rfl, rfl⟩, asmReg1_accepts fun _ => ⟨rfl, rfl⟩,
    asmInPlace_accepts fun _ _ _ => ⟨rfl, rfl⟩, asmInPlace_accepts fun _ _ _ => ⟨rfl, rfl⟩,
    asmInPlace_accepts fun _ _ _ => ⟨rfl, rfl⟩, asmInPlace_accepts fun _ _ _ => ⟨rfl, rfl⟩,
    asmBinary_accepts fun _ _ _ => ⟨rfl, rfl⟩, asmBinary_accepts fun _ _ _ => ⟨rfl, rfl⟩,
    asmBinary_accepts fun _ _ _ => ⟨rfl, rfl⟩, asmUnary_accepts fun _ _ => ⟨rfl, rfl⟩,
    asmShift_accepts fun _ _ _ => ⟨rfl, rfl⟩, asmShift_accepts fun _ _ _ => ⟨rfl, rfl⟩,
    asmInPlace_accepts fun _ _ _ => ⟨rfl, rfl⟩, asmRegImm_accepts fun _ _ => ⟨rfl, rfl⟩,
    asmBinary_accepts fun _ _ _ => ⟨rfl, rfl⟩, asmBinary_accepts fun _ _ _ => ⟨rfl, rfl⟩,
    asmReg2_accepts fun _ _ => ⟨rfl, rfl⟩, asmReg2_accepts fun _ _ => ⟨rfl, rfl⟩,
    asmReg2_accepts fun _ _ => ⟨rfl, rfl⟩, asmReg2_accepts fun _ _ => ⟨rfl, rfl⟩,
    asmReg2_accepts fun _ _ => ⟨rfl, rfl⟩, asmReg2_accepts fun _ _ => ⟨rfl, rfl⟩,
    asmReg2_accepts fun _ _ => ⟨rfl, rfl⟩, asmFmt_accepts fun _ _ => ⟨rfl, rfl⟩,
    asmFmtf_accepts fun _ _ _ _ => ⟨rfl, rfl⟩, asmMask_accepts fun _ => ⟨rfl, rfl⟩,
    asmMaskf_accepts fun _ _ => ⟨rfl, rfl⟩, asmNone_accepts ⟨rfl, rfl⟩, asmNone_accepts ⟨rfl, rfl⟩, nofun⟩

/-- What the assembler accepts is a well-formed command of the line's mnemonic, with a number of operands the mnemonic
has. -/
theorem assemble_accepts {line : String} {i : Instr} (h : assemble line = some i) :
    i.wellFormed = true ∧ mnemonicWord line = i.head.1.toList ∧
      (operandTexts line).length ∈ operandCounts i.head.1 := by
  rw [assemble, assembleWords] at h
  split at h
  · next f hf =>
    obtain ⟨hcount, hwf, hname⟩ := asmForms_accept f (List.mem_of_find?_eq_some hf) _ i h
    have hline := List.find?_some hf
    rw [hname]
    exact ⟨hwf, (beq_iff_eq.mp hline).symm, hcount⟩
  · cases h

/-- Settles O8: the form of the line's mnemonic answers only well-formed commands of that mnemonic, and the word of such
a command decodes to it. -/
theorem assembledLinesAreCommands : Obligations.AssembledLinesAreCommands := by
  intro line i h
  obtain ⟨hwf, hname, -⟩ := assemble_accepts h
  exact ⟨hwf, decodingAnEncodedCommandGivesItBack i hwf, hname⟩

/-- Settles O57: each form, on the full operands, fills the fields in their order, and it accepts no other number of
operands than its mnemonic has. -/
theorem assembledOperandsFillTheFields : Obligations.AssembledOperandsFillTheFields := by
  refine ⟨fun d l r w v x u rd rs1 rs2 a b rx sg hd hl hr hw hv hx hu => ?_,
    fun name counts line hname hcounts hlen => ?_⟩
  · have inPlace (mk) := asmInPlace_full mk hd hl hw
    have shift (mk) := asmShift_full mk hd hl hw
    have binary (mk) := asmBinary_full mk hd hl hr
    have compare (mk) := asmReg2_full mk hl hr
    have reg (mk) := asmReg1_full mk hl
    have regImm (mk) := asmRegImm_full mk hl hw
    exact ⟨spells (asmLdv_full hd hw hu), fun hne => spells (asmParse_full hd (asmParseRadix_of_ne hx hne) hw hu),
      spells (asmReg2_full .mov hd hl), spells (reg .rdmag), spells (reg .rdwid), spells (reg .rdsgn),
      spells (regImm .rdmagw), spells (inPlace .trunc), spells (inPlace .sat), spells (inPlace .expand),
      spells (inPlace .setw), spells (binary .and), spells (binary .or), spells (binary .xor), spells (binary .add),
      spells (binary .sub), spells (asmUnary_full .not hd hl), spells (shift .shl), spells (shift .shr),
      spells (inPlace .revb), spells (regImm .getb), spells (compare .cmp), spells (compare .eq), spells (compare .ne),
      spells (compare .lt), spells (compare .le), spells (compare .gt), spells (compare .ge),
      spells (asmFmt_full hl hx), spells (asmFmtf_full hl hx hw hv), spells (asmMask_full hw),
      spells (asmMaskf_full hv hw), spells (asmNone_full .hex2dec), spells (asmNone_full .clrst)⟩
  · have counts_eq : counts = operandCounts name := by
      obtain ⟨rfl, h⟩ | ⟨rfl, h⟩ | ⟨rfl, h⟩ | ⟨rfl, h⟩ | ⟨rfl, h⟩ | ⟨rfl, rfl⟩ | ⟨rfl, h⟩ | ⟨rfl, h⟩ := hcounts
      case inr.inr.inr.inr.inr.inl => rfl
      all_goals fin_cases h <;> rfl
    refine Option.eq_none_iff_forall_ne_some.mpr fun i hi => hlen ?_
    obtain ⟨-, hi, hcount⟩ := assemble_accepts hi
    rwa [counts_eq, String.toList_injective (hname.symm.trans hi)]

/-! ## How an operand's text reads (R90) -/

theorem asmReg_eq_some_iff (t : List Char) (k : VReg) : asmReg t = some k ↔ t = ['v', Char.ofNat (0x30 + k.val)] := by
  constructor
  · intro h
    unfold asmReg at h
    split at h
    · next c =>
      split at h
      · next hc =>
        have h0 : '0'.toNat = 0x30 := rfl
        have h7 : '7'.toNat = 0x37 := rfl
        obtain rfl := Option.some.inj h
        have hk : 0x30 + (Fin.ofNat 8 (c.toNat - '0'.toNat)).val = c.toNat := by
          rw [Fin.val_ofNat]
          omega
        rw [hk, Char.ofNat_toNat]
      · cases h
    · cases h
  · rintro rfl
    revert k
    decide

theorem asmRadix_eq_some_iff (t : List Char) (rx : Radix) : asmRadix t = some rx ↔
    (rx = .dec ∧ t = ['d']) ∨ (rx = .hex ∧ t = ['x']) ∨ (rx = .bin ∧ t = ['b']) := by
  unfold asmRadix
  split <;> cases rx <;> simp_all

theorem asmSign_eq_some_iff (t : List Char) (sg : Bool) :
    asmSign t = some sg ↔ (sg = false ∧ t = ['u']) ∨ (sg = true ∧ t = ['s']) := by
  unfold asmSign
  split <;> cases sg <;> simp_all

/-- A text of ASCII characters, at least one, is worth what the parser's digit loop makes of it. -/
theorem asmNat_ascii (base : Nat) (digit : Byte → Option Nat) (t : List Char) (hne : t ≠ [])
    (hascii : ∀ c ∈ t, c.toNat < 128) :
    asmNat base digit t = digitsValue base digit 0 (t.map fun c => BitVec.ofNat 8 c.toNat) := by
  refine if_neg ?_
  simp only [List.any_eq_true, decide_eq_true_eq, not_or, not_exists, not_and]
  exact ⟨hne, fun c hc => Nat.not_lt.mpr (Nat.le_of_lt_succ (hascii c hc))⟩

section Immediate

variable {t : List Char} {n : Nat} (hascii : ∀ c ∈ t, c.toNat < 128)
include hascii

theorem asmNat_of_readsDecimal (h : ReadsDecimal (t.map fun c => BitVec.ofNat 8 c.toNat) n) :
    asmNat 10 decDigit t = some n := by
  obtain ⟨hne, hdigits, rfl⟩ := h
  rw [asmNat_ascii 10 decDigit t (by simpa using hne) hascii, digitsValue_decimal _ 0 hdigits]

theorem asmNat_of_readsHex (h : ReadsHex (t.map fun c => BitVec.ofNat 8 c.toNat) n) :
    asmNat 16 hexDigit t = some n := by
  obtain ⟨hne, ds, hdigits, rfl⟩ := h
  rw [asmNat_ascii 16 hexDigit t (by simpa using hne) hascii, digitsValue_hex _ ds 0 hdigits]

theorem asmImm_of_readsHex (h : ReadsHex (t.map fun c => BitVec.ofNat 8 c.toNat) n) :
    asmImm ('0' :: 'x' :: t) = if n < 128 then some (BitVec.ofNat 7 n) else none := by
  simp only [asmImm, asmNat_of_readsHex hascii h]

/-- A decimal numeral does not begin with `0x`, for `x` is no decimal digit. -/
theorem asmImm_of_readsDecimal (h : ReadsDecimal (t.map fun c => BitVec.ofNat 8 c.toNat) n) :
    asmImm t = if n < 128 then some (BitVec.ofNat 7 n) else none := by
  have hn := asmNat_of_readsDecimal hascii h
  unfold asmImm
  split
  · obtain ⟨-, hdigits, -⟩ := h
    have hx := hdigits (BitVec.ofNat 8 'x'.toNat) (by simp)
    exact absurd hx (by decide)
  · simp only [hn]

end Immediate

/-- Settles O58: an operand's text is read by its characters, and a numeral by the parser's digit loop. -/
theorem operandTextsAreRead : Obligations.OperandTextsAreRead :=
  ⟨fun t => ⟨asmReg_eq_some_iff t, asmRadix_eq_some_iff t, asmSign_eq_some_iff t⟩,
    fun _ _ hascii => ⟨asmImm_of_readsDecimal hascii, asmImm_of_readsHex hascii⟩⟩

/-! ## How a line is cut (R90) -/

/-- A text that begins and ends with no blank. -/
structure Tight (t : List Char) : Prop where
  ne : t ≠ []
  head : ∀ c ∈ t.head?, blankChar c = false
  last : ∀ c ∈ t.getLast?, blankChar c = false

theorem Tight.of_word {t : List Char} (hne : t ≠ []) (h : ∀ c ∈ t, blankChar c = false) : Tight t :=
  ⟨hne, fun c hc => h c (List.mem_of_mem_head? hc), fun c hc => h c (List.mem_of_mem_getLast? hc)⟩

theorem Tight.append {t t' : List Char} (ht : Tight t) (ht' : Tight t') (sep : List Char) : Tight (t ++ sep ++ t') := by
  refine ⟨by simp [ht.ne], ?_, ?_⟩
  · rw [List.append_assoc, List.head?_append_of_ne_nil _ ht.ne]
    exact ht.head
  · rw [List.getLast?_append_of_ne_nil _ ht'.ne]
    exact ht'.last

theorem dropWhile_blank_eq_self {t : List Char} (h : ∀ c ∈ t.head?, blankChar c = false) :
    t.dropWhile blankChar = t := by
  cases t with
  | nil => rfl
  | cons c t => exact List.dropWhile_cons_of_neg (by simp [h c rfl])

theorem Tight.trimBlanks_eq {t : List Char} (h : Tight t) : trimBlanks t = t := by
  rw [trimBlanks, dropWhile_blank_eq_self h.head, dropWhile_blank_eq_self (by simpa using h.last), List.reverse_reverse]

theorem trimBlanks_space (t : List Char) : trimBlanks (' ' :: t) = trimBlanks t := rfl

theorem trimBlanks_append_space {t : List Char} (h : Tight t) : trimBlanks (t ++ [' ']) = t := by
  have hhead : ∀ c ∈ (t ++ [' ']).head?, blankChar c = false := by
    rw [List.head?_append_of_ne_nil _ h.ne]
    exact h.head
  have hblank : (' ' :: t.reverse).dropWhile blankChar = t.reverse.dropWhile blankChar := rfl
  rw [trimBlanks, dropWhile_blank_eq_self hhead, List.reverse_append, List.reverse_singleton, List.singleton_append,
    hblank, dropWhile_blank_eq_self (by simpa using h.last), List.reverse_reverse]

theorem blankChar_eq_false_iff (c : Char) : blankChar c = false ↔ c ≠ ' ' ∧ c ≠ '\t' := by simp [blankChar]

/-- A text of an operand: a word without blanks or commas. -/
def OperandText (t : List Char) : Prop := t ≠ [] ∧ ∀ c ∈ t, c ≠ ' ' ∧ c ≠ '\t' ∧ c ≠ ','

theorem OperandText.noBlank {t : List Char} (h : OperandText t) : ∀ c ∈ t, blankChar c = false := fun c hc => by
  obtain ⟨hspace, htab, -⟩ := h.2 c hc
  exact (blankChar_eq_false_iff c).mpr ⟨hspace, htab⟩

theorem OperandText.noComma {t : List Char} (h : OperandText t) : ∀ c ∈ t, c ≠ ',' := fun c hc => (h.2 c hc).2.2

theorem OperandText.tight {t : List Char} (h : OperandText t) : Tight t := .of_word h.1 h.noBlank

/-- Operands joined by a comma and a space. -/
theorem tight_intercalate (op : List Char) (ops : List (List Char)) (h : ∀ t ∈ op :: ops, OperandText t) :
    Tight ([',', ' '].intercalate (op :: ops)) := by
  obtain ⟨hop, hops⟩ := List.forall_mem_cons.mp h
  induction ops generalizing op with
  | nil => simpa using hop.tight
  | cons op' ops ih =>
    obtain ⟨hop', hrest⟩ := List.forall_mem_cons.mp hops
    rw [List.intercalate_cons_cons]
    exact hop.tight.append (ih op' hops hop' hrest) _

/-- Cutting gathers an operand's characters, with the space before them, and then drops that space. -/
theorem OperandText.gathered {op : List Char} (h : OperandText op) :
    trimBlanks (op.reverse ++ [' ']).reverse = op ∧
      ∀ rest, splitCommas [] (' ' :: (op ++ rest)) = splitCommas (op.reverse ++ [' ']) rest := by
  refine ⟨?_, fun rest => splitCommas_append op rest [' '] h.noComma⟩
  rw [List.reverse_append, List.reverse_reverse]
  exact (trimBlanks_space op).trans (trimBlanks_word op h.noBlank)

theorem splitCommas_last {op : List Char} (h : OperandText op) : splitCommas [] (' ' :: op) = [op] := by
  obtain ⟨htrim, hgather⟩ := h.gathered
  have hend := hgather []
  rw [List.append_nil] at hend
  rw [hend, splitCommas, htrim]

theorem splitCommas_first {op : List Char} (h : OperandText op) (rest : List Char) :
    splitCommas [] (' ' :: (op ++ ',' :: rest)) = op :: splitCommas [] rest := by
  obtain ⟨htrim, hgather⟩ := h.gathered
  rw [hgather, splitCommas, if_pos (beq_self_eq_true ','), htrim]

theorem splitCommas_intercalate (op : List Char) (ops : List (List Char)) (h : ∀ t ∈ op :: ops, OperandText t) :
    splitCommas [] (' ' :: [',', ' '].intercalate (op :: ops)) = op :: ops := by
  obtain ⟨hop, hops⟩ := List.forall_mem_cons.mp h
  induction ops generalizing op with
  | nil => rw [List.intercalate_singleton, splitCommas_last hop]
  | cons op' ops ih =>
    obtain ⟨hop', hrest⟩ := List.forall_mem_cons.mp hops
    rw [List.intercalate_cons_cons, List.append_assoc, List.cons_append, splitCommas_first hop, List.singleton_append,
      ih op' hops hop' hrest]

/-- A line is cut where its first word ends. -/
theorem line_cut {line : String} {name rest : List Char} (hname : ∀ c ∈ name, blankChar c = false)
    (hline : trimBlanks line.toList = name ++ rest) (hrest : ∀ c ∈ rest.head?, blankChar c = true) :
    mnemonicWord line = name.map upper ∧ operandTexts line = operandsOf rest := by
  have hword : ∀ c ∈ name, (!blankChar c) = true := fun c hc => by simp [hname c hc]
  rw [mnemonicWord, operandTexts, hline, List.takeWhile_append_of_pos hword, List.dropWhile_append_of_pos hword]
  cases rest with
  | nil => simp
  | cons c rest => simp [hrest c rfl]

/-- Settles O59: trimmed, the line is the mnemonic and, after a space, the operands joined; each is then cut off. -/
theorem linesAreCutAtTheCommas : Obligations.LinesAreCutAtTheCommas := by
  intro line name ops hne hname hops hline
  have hblank : ∀ c ∈ name, blankChar c = false := fun c hc => (blankChar_eq_false_iff c).mpr (hname c hc)
  have htight : Tight name := .of_word hne hblank
  cases ops with
  | nil =>
    have htrim : trimBlanks line.toList = name ++ [] := by
      rw [hline, List.append_nil]
      exact trimBlanks_append_space htight
    exact line_cut hblank htrim nofun
  | cons op ops =>
    have hjoined := tight_intercalate op ops hops
    have htrim : trimBlanks line.toList = name ++ ' ' :: [',', ' '].intercalate (op :: ops) := by
      rw [hline]
      simpa using (htight.append hjoined [' ']).trimBlanks_eq
    obtain ⟨hmnemonic, hoperands⟩ := line_cut hblank htrim (by simp [blankChar])
    refine ⟨hmnemonic, hoperands.trans ?_⟩
    rw [operandsOf, if_neg, splitCommas_intercalate op ops hops]
    rw [trimBlanks_space, hjoined.trimBlanks_eq]
    exact hjoined.ne

end Sys2Proof.Machine

/-! SUPPORT. The statements about construction, copy, the accessors and status control (spec/40_construct_access.md): what
LDV and MOV write to their destination, what the four accessors return, and what CLRST clears. -/

namespace Sys2Proof.Machine

/-! ## The word of a command (R72, R75) -/

/-- A well-formed command is encoded in the row it stands in. -/
theorem encoded (i : Instr) (hw : i.wellFormed = true := by rfl) : Encoded i.head.2.1 i.head.2.2 i :=
  ⟨decodingAnEncodedCommandGivesItBack i hw, opcodeAndFormat i⟩

/-! ## How a command completes, and what it then writes (R33, R302, R303) -/

theorem finishV_ok_writesV (s : State) (rd : VReg) (x : Value) :
    ∃ t, finishV s rd (.ok x) = .next t ∧ WritesV rd x s t :=
  ⟨_, finishV_ok s rd x, s.setV_writesV rd x⟩

theorem finishV_error_fails (s : State) (rd : VReg) (e : ErrorKind) :
    ∃ t, finishV s rd (.error e) = .next t ∧ Fails e s t :=
  ⟨_, finishV_error s rd e, s.raise_fails e⟩

theorem finishRes_ok_writesRes (s : State) (x : Mag) :
    ∃ t, finishRes s (.ok x) = .next t ∧ WritesRes x s t :=
  ⟨_, finishRes_ok s x, s.setRes_writesRes x⟩

theorem State.setStatus_sameButStatus (s : State) (x : Word) : SameButStatus s (s.setStatus x) :=
  ⟨fun i => s.contents_congr _ rfl rfl i, rfl, rfl, ⟨rfl, fun _ => rfl⟩, rfl, rfl, rfl, rfl⟩

/-! ## LDV and MOV (R100, R101) -/

theorem execLdv_of_legal (rd : VReg) (a : Imm) (sg : Bool) (s : State) (ha : 1 ≤ a.toNat ∧ a.toNat ≤ 64) :
    execLdv rd a sg s = finishV s rd (.ok ⟨s.readDin, a, sg⟩) :=
  congrArg (finishV s rd) ((ite_badWidth_eq_ok_iff ..).mpr ⟨ha, rfl⟩)

theorem execLdv_of_illegal (rd : VReg) (a : Imm) (sg : Bool) (s : State) (ha : ¬(1 ≤ a.toNat ∧ a.toNat ≤ 64)) :
    execLdv rd a sg s = finishV s rd (.error .outOfRange) :=
  congrArg (finishV s rd) (if_pos ((badWidth_eq_true_iff a).mpr ha))

/-- Settles O20: the width check lets DIN through whole, or raises OutOfRange. -/
theorem ldvConstructsFromDin : Obligations.LdvConstructsFromDin := by
  intro rd a sg s
  have hexec : exec (.ldv rd a sg) s = execLdv rd a sg s := rfl
  rw [hexec]
  refine ⟨encoded (.ldv rd a sg), fun ha => ?_, fun ha => ?_⟩
  · rw [execLdv_of_legal rd a sg s ha]
    exact finishV_ok_writesV s rd _
  · rw [execLdv_of_illegal rd a sg s ha]
    exact finishV_error_fails s rd _

/-- Settles O21: the operand read is the value written, with no mask between. -/
theorem movCopiesTheValue : Obligations.MovCopiesTheValue :=
  fun rd rs1 s => ⟨encoded (.mov rd rs1), finishV_ok_writesV s rd (s.left rs1)⟩

/-! ## The accessors (R102 to R105) -/

/-- `mask` sees its width only through the clamp to [1,64] (R130). -/
theorem mask_clamp (n : Nat) : mask (clamp n 1 64) = mask n := by
  have hclamp : clamp (clamp n 1 64) 1 64 = clamp n 1 64 := by unfold clamp; omega
  simp only [mask, hclamp]

theorem mask_toNat_clamp (n : Nat) : (mask n).toNat = 2 ^ clamp n 1 64 - 1 := by
  rw [← mask_clamp, mask_toNat] <;> unfold clamp <;> omega

/-- A magnitude under a mask is the magnitude modulo a power of two. -/
theorem and_mask_eq_mod (m : Mag) (n : Nat) : m &&& mask n = BitVec.ofNat 64 (m.toNat % 2 ^ clamp n 1 64) := by
  apply BitVec.eq_of_toNat_eq
  have hlt : m.toNat % 2 ^ clamp n 1 64 < 2 ^ 64 := (Nat.mod_le ..).trans_lt m.isLt
  rw [BitVec.toNat_and, mask_toNat_clamp, Nat.and_two_pow_sub_one_eq_mod, BitVec.toNat_ofNat, Nat.mod_eq_of_lt hlt]

/-- Settles O22: each accessor puts a field of its operand in RES; RDMAGW's mask is a remainder, RDWID's width a number. -/
theorem accessorsReturnTheFields : Obligations.AccessorsReturnTheFields := by
  intro rs1 a s
  have hmagw : BitVec.ofNat 64 ((s.left rs1).mag.toNat % 2 ^ min (max a.toNat 1) 64) =
      (s.left rs1).mag &&& mask a.toNat := (and_mask_eq_mod ..).symm
  rw [hmagw, BitVec.ofNat_toNat]
  refine ⟨⟨encoded (.rdmag rs1), encoded (.rdmagw rs1 a), encoded (.rdwid rs1), encoded (.rdsgn rs1)⟩, ?_, ?_, ?_, ?_⟩
  · exact finishRes_ok_writesRes s (s.left rs1).mag
  · exact finishRes_ok_writesRes s ((s.left rs1).mag &&& mask a.toNat)
  · exact finishRes_ok_writesRes s ((s.left rs1).w.setWidth 64)
  · exact finishRes_ok_writesRes s (truth (s.left rs1).s)

/-! ## CLRST (R110) -/

/-- Completion keeps STICKY, which CLRST has cleared. -/
theorem execClrst_next (s : State) : execClrst s = .next (s.setStatus 0) := by
  have hsticky : (s.setStatus (statusWord false 0)).sticky = false := statusWord_sticky _ _
  rw [execClrst, finish_ok, State.complete, hsticky]
  rfl

/-- Settles O23: STATUS is all that CLRST writes. -/
theorem clrstClearsStatus : Obligations.ClrstClearsStatus :=
  fun s => ⟨encoded .clrst, by decide, _, execClrst_next s, rfl, s.setStatus_sameButStatus 0⟩

end Sys2Proof.Machine

/-! SUPPORT. The statements about the mask functions, the mask commands and width conversion (spec/41_mask_width.md): the
values and the bits of the masks, and what MASK, MASKF, TRUNC, SAT, EXPAND and SETW do at a legal width and at any other. -/

namespace Sys2Proof.Machine

/-! ## The mask functions (R130, R131) -/

theorem clamp_of_legal (n : Nat) (h : 1 ≤ n ∧ n ≤ 64) : clamp n 1 64 = n := by unfold clamp; omega

/-- The width of the field: the clamped width, and never past bit 63 (R131). -/
def fieldWidth (lsb w : Nat) : Nat := min (clamp w 1 64) (64 - min lsb 63)

theorem fieldWidth_legal (lsb w : Nat) : 1 ≤ fieldWidth lsb w ∧ fieldWidth lsb w ≤ 64 := by
  unfold fieldWidth clamp; omega

/-- The field ends at bit 63 at the latest. -/
theorem lsb_add_fieldWidth_le (lsb w : Nat) : min lsb 63 + fieldWidth lsb w ≤ 64 := by
  unfold fieldWidth; omega

/-- At lsb 0 too, where the model does not shift, a field mask is a mask moved up to its lsb. -/
theorem fieldmask_eq_shiftLeft (lsb w : Nat) : fieldmask lsb w = mask (fieldWidth lsb w) <<< min lsb 63 := by
  have hwidth : (if min lsb 63 + clamp w 1 64 > 64 then 64 - min lsb 63 else clamp w 1 64) = fieldWidth lsb w := by
    unfold fieldWidth; split <;> omega
  simp only [fieldmask, hwidth]
  split
  · next h => rw [h, BitVec.shiftLeft_zero]
  · rfl

theorem fieldmask_toNat (lsb w : Nat) :
    (fieldmask lsb w).toNat = 2 ^ (min lsb 63 + fieldWidth lsb w) - 2 ^ min lsb 63 := by
  obtain ⟨h1, h64⟩ := fieldWidth_legal lsb w
  have hle : 2 ^ (min lsb 63 + fieldWidth lsb w) ≤ 2 ^ 64 :=
    Nat.pow_le_pow_right (by decide) (lsb_add_fieldWidth_le lsb w)
  have hpos := Nat.two_pow_pos (min lsb 63)
  calc (fieldmask lsb w).toNat
      = (2 ^ fieldWidth lsb w - 1) * 2 ^ min lsb 63 % 2 ^ 64 := by
        rw [fieldmask_eq_shiftLeft, BitVec.toNat_shiftLeft, mask_toNat _ h1 h64, Nat.shiftLeft_eq]
    _ = (2 ^ (min lsb 63 + fieldWidth lsb w) - 2 ^ min lsb 63) % 2 ^ 64 := by
        rw [Nat.sub_mul, Nat.one_mul, Nat.add_comm, Nat.pow_add]
    _ = 2 ^ (min lsb 63 + fieldWidth lsb w) - 2 ^ min lsb 63 := Nat.mod_eq_of_lt (by omega)

/-- Settles O17: a mask is a power of two less one, and a field mask that number shifted up. -/
theorem maskFunctionValues : Obligations.MaskFunctionValues :=
  ⟨mask_toNat_clamp, fieldmask_toNat⟩

/-! ## The laws of the mask functions (R139) -/

theorem mask_getLsbD (w : Nat) (h1 : 1 ≤ w) (h64 : w ≤ 64) (i : Nat) : (mask w).getLsbD i = decide (i < w) := by
  rw [← BitVec.testBit_toNat, mask_toNat w h1 h64, Nat.testBit_two_pow_sub_one]

theorem fieldmask_zero (w : Nat) : fieldmask 0 w = mask w := by
  have hwidth : fieldWidth 0 w = clamp w 1 64 := by unfold fieldWidth clamp; omega
  rw [fieldmask_eq_shiftLeft, hwidth, mask_clamp]
  exact BitVec.shiftLeft_zero _

/-- A field inside the 64 bits is not clamped. -/
theorem fieldmask_of_inside (lsb w : Nat) (h1 : 1 ≤ w) (h64 : lsb + w ≤ 64) : fieldmask lsb w = mask w <<< lsb := by
  have hwidth : fieldWidth lsb w = w := by unfold fieldWidth clamp; omega
  have hlsb : min lsb 63 = lsb := by omega
  rw [fieldmask_eq_shiftLeft, hwidth, hlsb]

theorem fieldmask_getLsbD (lsb w : Nat) (h1 : 1 ≤ w) (h64 : lsb + w ≤ 64) (i : Nat) :
    (fieldmask lsb w).getLsbD i = decide (lsb ≤ i ∧ i < lsb + w) := by
  rw [fieldmask_of_inside lsb w h1 h64, BitVec.getLsbD_shiftLeft, mask_getLsbD w h1 (by omega), Bool.eq_iff_iff]
  simp only [Bool.and_eq_true, Bool.not_eq_true', decide_eq_true_eq, decide_eq_false_iff_not]
  omega

/-- No bit lies in both of two disjoint fields. -/
theorem fieldmask_and_disjoint (l1 w1 l2 w2 : Nat) (h1 : 1 ≤ w1) (h2 : 1 ≤ w2) (hdisj : l1 + w1 ≤ l2)
    (h64 : l2 + w2 ≤ 64) : fieldmask l1 w1 &&& fieldmask l2 w2 = 0 := by
  refine BitVec.eq_of_getLsbD_eq fun i _ => ?_
  have hnone : ¬((l1 ≤ i ∧ i < l1 + w1) ∧ l2 ≤ i ∧ i < l2 + w2) := by omega
  rw [BitVec.getLsbD_and, fieldmask_getLsbD l1 w1 h1 (by omega), fieldmask_getLsbD l2 w2 h2 h64, ← Bool.decide_and,
    decide_eq_false hnone]
  exact BitVec.getLsbD_zero.symm

/-- Settles O18: the masks bit by bit, and from their bits that disjoint fields share none. -/
theorem maskFunctionLaws : Obligations.MaskFunctionLaws :=
  ⟨mask_getLsbD, fieldmask_zero, fieldmask_getLsbD, fieldmask_and_disjoint⟩

/-! ## MASK and MASKF (R132, R134) -/

theorem ofNat_eq_of_toNat {m : Mag} {n : Nat} (h : m.toNat = n) : BitVec.ofNat 64 n = m := by
  rw [← h, BitVec.ofNat_toNat, BitVec.setWidth_eq]

/-- Settles O19: the two commands put the mask functions' values in RES. -/
theorem maskCommandsReturnMasks : Obligations.MaskCommandsReturnMasks := by
  intro a b s
  rw [ofNat_eq_of_toNat (maskFunctionValues.1 a.toNat), ofNat_eq_of_toNat (maskFunctionValues.2 b.toNat a.toNat)]
  exact ⟨encoded (.mask a), encoded (.maskf b a), finishRes_ok_writesRes s (mask a.toNat),
    finishRes_ok_writesRes s (fieldmask b.toNat a.toNat)⟩

/-! ## The width check of the four conversions (R133, R304) -/

section WidthCheck

variable (s : State) (rd : VReg) {a : Imm} {r : Except ErrorKind Value}

theorem finishV_badWidth_fails (ha : ¬(1 ≤ a.toNat ∧ a.toNat ≤ 64)) :
    ∃ t, finishV s rd (if badWidth a then .error .outOfRange else r) = .next t ∧ Fails .outOfRange s t := by
  rw [if_pos ((badWidth_eq_true_iff a).mpr ha)]
  exact finishV_error_fails s rd _

theorem finishV_legalWidth_writesV {x : Value} (ha : 1 ≤ a.toNat ∧ a.toNat ≤ 64) (hr : r = .ok x) :
    ∃ t, finishV s rd (if badWidth a then .error .outOfRange else r) = .next t ∧ WritesV rd x s t := by
  rw [(ite_badWidth_eq_ok_iff ..).mpr ⟨ha, hr⟩]
  exact finishV_ok_writesV s rd x

theorem finishV_legalWidth_fails {e : ErrorKind} (ha : 1 ≤ a.toNat ∧ a.toNat ≤ 64) (hr : r = .error e) :
    ∃ t, finishV s rd (if badWidth a then .error .outOfRange else r) = .next t ∧ Fails e s t := by
  rw [if_neg fun h => (badWidth_eq_true_iff a).mp h ha, hr]
  exact finishV_error_fails s rd e

end WidthCheck

/-- Settles O24: the four conversions have the check in common, and it comes first. -/
theorem widthIsCheckedFirst : Obligations.WidthIsCheckedFirst :=
  fun rd _ _ s ha => ⟨finishV_badWidth_fails s rd ha, finishV_badWidth_fails s rd ha, finishV_badWidth_fails s rd ha,
    finishV_badWidth_fails s rd ha⟩

/-! ## TRUNC (R135) -/

theorem and_mask_of_legal (m : Mag) (n : Nat) (h : 1 ≤ n ∧ n ≤ 64) :
    m &&& mask n = BitVec.ofNat 64 (m.toNat % 2 ^ n) := by
  rw [and_mask_eq_mod, clamp_of_legal n h]

theorem truncated_eq (x : Value) (a : Imm) (ha : 1 ≤ a.toNat ∧ a.toNat ≤ 64) :
    truncated x a = ⟨BitVec.ofNat 64 (x.mag.toNat % 2 ^ a.toNat), a, x.s⟩ := by
  rw [truncated, and_mask_of_legal _ _ ha]

/-- Settles O25: masking to a legal width is a remainder. -/
theorem truncDropsHighBits : Obligations.TruncDropsHighBits := fun rd rs1 a s =>
  ⟨encoded (.trunc rd rs1 a),
    fun ha => finishV_legalWidth_writesV s rd ha (congrArg Except.ok (truncated_eq _ a ha)),
    fun ha => finishV_badWidth_fails s rd ha⟩

/-! ## SAT (R136) -/

/-- A magnitude has no bit outside a mask exactly when the mask takes nothing away. -/
theorem and_not_eq_zero_iff (m k : Mag) : m &&& ~~~k = 0 ↔ m &&& k = m := by
  have hsplit : m = (m &&& k) ||| (m &&& ~~~k) := by
    rw [← BitVec.and_or_distrib_left, BitVec.or_not_self, BitVec.and_allOnes]
  constructor
  · intro h
    rw [h] at hsplit
    simpa using hsplit.symm
  · intro h
    rw [← h, BitVec.and_assoc]
    simp

/-- SAT's test: no bit at or above the width means a number below 2^n. -/
theorem and_not_mask_eq_zero_iff (m : Mag) (n : Nat) (h1 : 1 ≤ n) (h64 : n ≤ 64) :
    m &&& ~~~(mask n) = 0 ↔ m.toNat < 2 ^ n := by
  rw [and_not_eq_zero_iff]
  constructor
  · intro h
    simpa only [h] using and_mask_lt m n h1 h64
  · intro h
    rw [and_mask_of_legal m n ⟨h1, h64⟩, Nat.mod_eq_of_lt h, ofNat_eq_of_toNat rfl]

theorem saturated_of_signed (x : Value) (a : Imm) (hs : x.s = true) : saturated x a = .error .unsupported := by
  rw [saturated, if_pos hs]

/-- Below 2^a the magnitude stays as it is, and from there on the mask, the largest number of the width, stands for it. -/
theorem saturated_of_unsigned (x : Value) (a : Imm) (ha : 1 ≤ a.toNat ∧ a.toNat ≤ 64) (hs : x.s = false) :
    saturated x a = .ok ⟨BitVec.ofNat 64 (min x.mag.toNat (2 ^ a.toNat - 1)), a, false⟩ := by
  have htest := and_not_mask_eq_zero_iff x.mag a.toNat ha.1 ha.2
  have hpos := Nat.two_pow_pos a.toNat
  simp only [saturated, hs, Bool.false_eq_true, if_false]
  by_cases hlt : x.mag.toNat < 2 ^ a.toNat
  · rw [if_neg (not_not.mpr (htest.mpr hlt)), and_mask_of_legal _ _ ha, Nat.mod_eq_of_lt hlt, Nat.min_eq_left (by omega)]
  · rw [if_pos (mt htest.mp hlt), Nat.min_eq_right (by omega), ofNat_eq_of_toNat (mask_toNat _ ha.1 ha.2)]

/-- Settles O26: after the width check SAT refuses a signed operand and clamps an unsigned one. -/
theorem satClampsToTheMaximum : Obligations.SatClampsToTheMaximum := fun rd rs1 a s =>
  ⟨encoded (.sat rd rs1 a),
    fun ha hs => finishV_legalWidth_writesV s rd ha (saturated_of_unsigned _ a ha hs),
    fun ha hs => finishV_legalWidth_fails s rd ha (saturated_of_signed _ a hs),
    fun ha => finishV_badWidth_fails s rd ha⟩

/-! ## EXPAND (R137) -/

theorem expanded_of_narrower (x : Value) (a : Imm) (h : a.toNat < x.w.toNat) : expanded x a = .error .outOfRange := by
  rw [expanded, if_pos h]

theorem expanded_of_signed (x : Value) (a : Imm) (h : x.w.toNat ≤ a.toNat) (hs : x.s = true) :
    expanded x a = .error .unsupported := by
  rw [expanded, if_neg (Nat.not_lt.mpr h), if_pos hs]

theorem expanded_of_unsigned (x : Value) (a : Imm) (hx : x.LegalWidth) (h : x.w.toNat ≤ a.toNat) (hs : x.s = false) :
    expanded x a = .ok ⟨BitVec.ofNat 64 (x.mag.toNat % 2 ^ x.w.toNat), a, false⟩ := by
  rw [expanded, if_neg (Nat.not_lt.mpr h), Value.mask, and_mask_of_legal _ _ hx, hs]
  rfl

/-- Settles O27: a legal width below the operand's is refused by EXPAND itself, any other width by the common check. -/
theorem expandKeepsTheValue : Obligations.ExpandKeepsTheValue := by
  intro rd rs1 a s hlegal
  have hw := s.left_width rs1 hlegal
  refine ⟨encoded (.expand rd rs1 a), fun ha hs => ?_, fun ha hs => ?_, fun ha => ?_⟩
  · exact finishV_legalWidth_writesV s rd ⟨hw.1.trans ha.1, ha.2⟩ (expanded_of_unsigned _ a hw ha.1 hs)
  · exact finishV_legalWidth_fails s rd ⟨hw.1.trans ha.1, ha.2⟩ (expanded_of_signed _ a ha.1 hs)
  · by_cases hrange : 1 ≤ a.toNat ∧ a.toNat ≤ 64
    · exact finishV_legalWidth_fails s rd hrange (expanded_of_narrower _ a (by omega))
    · exact finishV_badWidth_fails s rd hrange

/-! ## SETW (R138) -/

/-- Settles O28: SETW takes the path of EXPAND above the operand's width, and that of SAT up to it. -/
theorem setwExpandsOrSaturates : Obligations.SetwExpandsOrSaturates := by
  intro rd rs1 a s hlegal
  have hw := s.left_width rs1 hlegal
  refine ⟨encoded (.setw rd rs1 a), fun ha hs => ?grows, fun ha hs => ?shrinks, fun ha hs => ?signed,
    fun ha => finishV_badWidth_fails s rd ha⟩
  case grows =>
    refine finishV_legalWidth_writesV s rd ⟨by omega, ha.2⟩ ?_
    rw [if_pos ha.1, expanded_of_unsigned _ a hw ha.1.le hs]
  case shrinks =>
    have hrange : 1 ≤ a.toNat ∧ a.toNat ≤ 64 := ⟨ha.1, ha.2.trans hw.2⟩
    refine finishV_legalWidth_writesV s rd hrange ?_
    rw [if_neg (Nat.not_lt.mpr ha.2), saturated_of_unsigned _ a hrange hs]
  case signed =>
    refine finishV_legalWidth_fails s rd ha ?_
    split
    · next h => exact expanded_of_signed _ a h.le hs
    · exact saturated_of_signed _ a hs

end Sys2Proof.Machine

/-! SUPPORT. The statements about bitwise operations, arithmetic and comparison (spec/42_bitwise_arith.md): the bits and the
numbers that a masked magnitude keeps, what AND, OR, XOR, NOT, the shifts, REVB, ADD and SUB write to their destination, and
what GETB and the comparisons return. -/

namespace Sys2Proof.Machine

/-! ## A magnitude masked to the width of a value, as bits and as a number (R160) -/

theorem and_mask_getLsbD (m : Mag) (n : Nat) (h : 1 ≤ n ∧ n ≤ 64) (k : Nat) :
    (m &&& mask n).getLsbD k = (decide (k < n) && m.getLsbD k) := by
  rw [BitVec.getLsbD_and, mask_getLsbD n h.1 h.2, Bool.and_comm]

/-- Under the mask of a legal width only the bits below it count. -/
theorem and_mask_getLsbD_of_below {m : Mag} {n : Nat} (h : 1 ≤ n ∧ n ≤ 64) {g : Nat → Bool}
    (hg : ∀ k, k < n → m.getLsbD k = g k) (k : Nat) : (m &&& mask n).getLsbD k = (decide (k < n) && g k) := by
  rw [and_mask_getLsbD m n h]
  by_cases hk : k < n
  · rw [hg k hk]
  · rw [decide_eq_false hk, Bool.false_and, Bool.false_and]

/-- Bits at and above a legal width are no part of the number: the 64-bit reduction before the mask loses nothing. -/
theorem Value.withMag_ofInt (x : Value) (z : Int) (hx : x.LegalWidth) :
    x.withMag (BitVec.ofInt 64 z) = ⟨BitVec.ofInt 64 (z % 2 ^ x.w.toNat), x.w, x.s⟩ := by
  have hdvd : (2 : Int) ^ x.w.toNat ∣ 2 ^ 64 := pow_dvd_pow 2 hx.2
  have hmod : (((z % 2 ^ 64).toNat % 2 ^ x.w.toNat : Nat) : Int) = z % 2 ^ x.w.toNat := by
    rw [Int.natCast_emod, Int.toNat_of_nonneg (Int.emod_nonneg _ (by decide)), Nat.cast_pow]
    exact Int.emod_emod_of_dvd z hdvd
  rw [← hmod, BitVec.ofInt_natCast, Value.withMag, Value.mask, and_mask_of_legal _ _ hx, BitVec.toNat_ofInt]
  rfl

theorem Value.withMag_ofNat (x : Value) (n : Nat) (hx : x.LegalWidth) :
    x.withMag (BitVec.ofNat 64 n) = ⟨BitVec.ofNat 64 (n % 2 ^ x.w.toNat), x.w, x.s⟩ := by
  have h := x.withMag_ofInt n hx
  rwa [← Nat.cast_two, ← Nat.cast_pow, ← Int.natCast_emod, BitVec.ofInt_natCast, BitVec.ofInt_natCast] at h

/-! ## AND, OR and XOR (R161 to R164) -/

theorem combined_of_narrower_signed (op : Mag → Mag → Mag) {l r : Value} (hw : r.w.toNat < l.w.toNat) (hs : r.s = true) :
    combined op l r = .error .unsupported := by
  rw [combined, widen, if_pos hw, if_pos hs]

/-- Below the left width, the widened right operand has the bits the right operand has below its own width (R161). -/
theorem widen_getLsbD (l : Value) {r : Value} (hr : r.LegalWidth) (h : ¬(r.w.toNat < l.w.toNat ∧ r.s = true)) :
    ∃ m, widen l r = .ok m ∧
      ∀ k, k < l.w.toNat → m.getLsbD k = (r.mag.getLsbD k && decide (k < r.w.toNat)) := by
  by_cases hw : r.w.toNat < l.w.toNat
  · have hs : ¬r.s = true := fun hs => h ⟨hw, hs⟩
    refine ⟨r.mag &&& r.mask, by rw [widen, if_pos hw, if_neg hs], fun k _ => ?_⟩
    rw [Value.mask, and_mask_getLsbD _ _ hr, Bool.and_comm]
  · refine ⟨r.mag, by rw [widen, if_neg hw], fun k hk => ?_⟩
    rw [decide_eq_true (by omega), Bool.and_true]

theorem combined_getLsbD {op : Mag → Mag → Mag} {f : Bool → Bool → Bool}
    (hop : ∀ x y k, (op x y).getLsbD k = f (x.getLsbD k) (y.getLsbD k)) {l r : Value} (hl : l.LegalWidth)
    (hr : r.LegalWidth) (h : ¬(r.w.toNat < l.w.toNat ∧ r.s = true)) :
    ∃ m, combined op l r = .ok ⟨m, l.w, l.s⟩ ∧ ∀ k, m.getLsbD k =
      (decide (k < l.w.toNat) && f (l.mag.getLsbD k) (r.mag.getLsbD k && decide (k < r.w.toNat))) := by
  obtain ⟨rm, hwiden, hbits⟩ := widen_getLsbD l hr h
  refine ⟨op l.mag rm &&& l.mask, by rw [combined, hwiden]; rfl, and_mask_getLsbD_of_below hl fun k hk => ?_⟩
  rw [hop, hbits k hk]

/-- Settles O29: the three commands differ in the operation on bits alone. -/
theorem bitwiseCombinesBelowTheLeftWidth : Obligations.BitwiseCombinesBelowTheLeftWidth := by
  intro rd rs1 rs2 s hlegal
  refine ⟨⟨encoded (.and rd rs1 rs2), encoded (.or rd rs1 rs2), encoded (.xor rd rs1 rs2)⟩, fun i f hi => ?_⟩
  obtain ⟨op, hop, hexec⟩ : ∃ op : Mag → Mag → Mag, (∀ x y k, (op x y).getLsbD k = f (x.getLsbD k) (y.getLsbD k)) ∧
      exec i s = finishV s rd (combined op (s.left rs1) (s.right rs2)) := by
    rcases hi with ⟨rfl, rfl⟩ | ⟨rfl, rfl⟩ | ⟨rfl, rfl⟩
    · exact ⟨_, fun _ _ _ => BitVec.getLsbD_and, rfl⟩
    · exact ⟨_, fun _ _ _ => BitVec.getLsbD_or, rfl⟩
    · exact ⟨_, fun _ _ _ => BitVec.getLsbD_xor, rfl⟩
  rw [hexec]
  refine ⟨fun h => ?_, fun h => ?_⟩
  · rw [combined_of_narrower_signed op h.1 h.2]
    exact finishV_error_fails s rd _
  · obtain ⟨m, hm, hbits⟩ := combined_getLsbD hop (s.left_width rs1 hlegal) (s.right_width rs2 hlegal) h
    obtain ⟨t, ht, hwrites⟩ := finishV_ok_writesV s rd ⟨m, (s.left rs1).w, (s.left rs1).s⟩
    exact ⟨m, t, by rw [hm, ht], hwrites, hbits⟩

/-! ## NOT (R165) -/

/-- A command that completes with a masked magnitude, whose bits are then known below the width. -/
theorem finishV_withMag_getLsbD (s : State) (rd : VReg) (x : Value) (m : Mag) (hx : x.LegalWidth) {g : Nat → Bool}
    (hg : ∀ k, k < x.w.toNat → m.getLsbD k = g k) :
    ∃ m' t, finishV s rd (.ok (x.withMag m)) = .next t ∧ WritesV rd ⟨m', x.w, x.s⟩ s t ∧
      ∀ k, m'.getLsbD k = (decide (k < x.w.toNat) && g k) := by
  obtain ⟨t, ht, hwrites⟩ := finishV_ok_writesV s rd (x.withMag m)
  exact ⟨m &&& x.mask, t, ht, hwrites, and_mask_getLsbD_of_below hx hg⟩

/-- Settles O30: below the width the mask is all ones, and an exclusive or with 1 is the complement. -/
theorem notComplementsBelowTheWidth : Obligations.NotComplementsBelowTheWidth := by
  intro rd rs1 s hlegal
  have hw := s.left_width rs1 hlegal
  refine ⟨encoded (.not rd rs1), finishV_withMag_getLsbD s rd _ _ hw fun k hk => ?_⟩
  rw [BitVec.getLsbD_xor, Value.mask, mask_getLsbD _ hw.1 hw.2, decide_eq_true hk, Bool.xor_true]

/-! ## SHL and SHR (R166, R167) -/

/-- The case of an amount of 64 or more is no exception. -/
theorem shiftLeft_eq (m : Mag) (n : Nat) : shiftLeft m n = m <<< n := by
  unfold shiftLeft
  split
  · next h => exact (BitVec.shiftLeft_eq_zero h).symm
  · rfl

theorem shiftRight_eq (m : Mag) (n : Nat) : shiftRight m n = m >>> n := by
  unfold shiftRight
  split
  · next h => exact (BitVec.ushiftRight_eq_zero h).symm
  · rfl

theorem shiftLeft_eq_ofNat (m : Mag) (n : Nat) : shiftLeft m n = BitVec.ofNat 64 (m.toNat * 2 ^ n) := by
  apply BitVec.eq_of_toNat_eq
  rw [shiftLeft_eq, BitVec.toNat_shiftLeft, BitVec.toNat_ofNat, Nat.shiftLeft_eq]

theorem shiftRight_eq_ofNat (m : Mag) (n : Nat) : shiftRight m n = BitVec.ofNat 64 (m.toNat / 2 ^ n) := by
  rw [shiftRight_eq, ← Nat.shiftRight_eq_div_pow, ← BitVec.toNat_ushiftRight, ofNat_eq_of_toNat rfl]

/-- Settles O31: the shifts are a product and a quotient, and the mask reduces them modulo 2^w. -/
theorem shiftsMultiplyAndDivide : Obligations.ShiftsMultiplyAndDivide := by
  intro rd rs1 a s hlegal
  have hw := s.left_width rs1 hlegal
  rw [← Value.withMag_ofNat _ _ hw, ← Value.withMag_ofNat _ _ hw, ← shiftLeft_eq_ofNat, ← shiftRight_eq_ofNat]
  exact ⟨encoded (.shl rd rs1 a), encoded (.shr rd rs1 a), finishV_ok_writesV s rd _, finishV_ok_writesV s rd _⟩

/-! ## REVB (R168) -/

theorem shiftLeft_one_getLsbD (n : Nat) {k : Nat} (hk : k < 64) : (shiftLeft 1 n).getLsbD k = decide (k = n) := by
  have htwo : shiftLeft 1 n = BitVec.twoPow 64 n := (shiftLeft_eq 1 n).trans (BitVec.twoPow_eq 64 n).symm
  rw [htwo, BitVec.getLsbD_twoPow, ← Bool.decide_and, decide_eq_decide]
  omega

theorem execRevb_of_beyond (rd rs1 : VReg) (a : Imm) (s : State) (ha : (s.left rs1).w.toNat ≤ a.toNat) :
    execRevb rd rs1 a s = finishV s rd (.ok (s.left rs1)) := by
  rw [execRevb, if_pos ha]

/-- Settles O32: the toggled bit is the one where the exclusive or has its 1. -/
theorem revbTogglesOneBit : Obligations.RevbTogglesOneBit := by
  intro rd rs1 a s hlegal
  have hw := s.left_width rs1 hlegal
  have hexec : exec (.revb rd rs1 a) s = execRevb rd rs1 a s := rfl
  rw [hexec]
  refine ⟨encoded (.revb rd rs1 a), fun ha => ?_, fun ha => ?_⟩
  · rw [execRevb_of_beyond rd rs1 a s ha]
    exact finishV_ok_writesV s rd _
  · rw [execRevb_toggle rd rs1 a s ha]
    refine finishV_withMag_getLsbD s rd _ _ hw fun k hk => ?_
    rw [BitVec.getLsbD_xor, shiftLeft_one_getLsbD _ (hk.trans_le hw.2)]

/-! ## GETB (R169) -/

theorem Value.val_getLsbD (x : Value) (hx : x.LegalWidth) {k : Nat} (hk : k < x.w.toNat) :
    x.val.getLsbD k = x.mag.getLsbD k := by
  rw [Value.val, Value.mask, and_mask_getLsbD _ _ hx, decide_eq_true hk, Bool.true_and]

/-- A bit as its character, "0" or "1" (R12). -/
theorem zeroChar_add_truth (b : Bool) : 0x30#64 + truth b = if b = true then 0x31 else 0x30 := by
  cases b <;> rfl

/-- Settles O33: the bit read lies below the width, where the value is the raw magnitude. -/
theorem getbReadsTheStringPosition : Obligations.GetbReadsTheStringPosition := by
  intro rs1 a s hlegal
  have hw := s.left_width rs1 hlegal
  have hexec : exec (.getb rs1 a) s = execGetb rs1 a s := rfl
  rw [hexec, execGetb]
  refine ⟨encoded (.getb rs1 a), fun ha => ?_, fun ha => ?_⟩
  · rw [if_neg (Nat.not_le.mpr ha), Value.val_getLsbD _ hw (by omega), zeroChar_add_truth]
    exact finishRes_ok_writesRes s _
  · rw [if_pos ha]
    exact ⟨_, finishRes_error s _, s.raise_fails _⟩

/-! ## Two toggles (R168, Q6) -/

/-- Of two writes to one register the second one lasts. -/
theorem WritesV.trans {rd : VReg} {x y : Value} {s t u : State} (h : WritesV rd y s t) (h' : WritesV rd x t u) :
    WritesV rd x s u := by
  obtain ⟨-, hv, hres, hdin, ⟨htlen, htxt⟩, ⟨hreset, hin, hrep, htick⟩, -, hsticky, -⟩ := h
  obtain ⟨hx, hv', hres', hdin', ⟨htlen', htxt'⟩, ⟨hreset', hin', hrep', htick'⟩, hcode', hsticky', hzero'⟩ := h'
  exact ⟨hx, fun i hi => (hv' i hi).trans (hv i hi), hres'.trans hres, hdin'.trans hdin,
    ⟨htlen'.trans htlen, fun k => (htxt' k).trans (htxt k)⟩,
    ⟨hreset'.trans hreset, hin'.trans hin, hrep'.trans hrep, htick'.trans htick⟩,
    hcode', hsticky'.trans hsticky, hzero'⟩

/-- A value with no bit at or above its width is not changed by its mask (R23). -/
theorem Value.Masked.withMag_mag {x : Value} (h : x.Masked) (hx : x.LegalWidth) : x.withMag x.mag = x := by
  have hmag : x.mag &&& x.mask = x.mag :=
    (and_not_eq_zero_iff _ _).mp ((and_not_mask_eq_zero_iff _ _ hx.1 hx.2).mpr h)
  rw [Value.withMag, hmag]

/-- The bits of `m` cancel below the width, and the mask takes the others. -/
theorem Value.withMag_xor_xor (x : Value) (m : Mag) :
    x.withMag ((x.withMag (x.mag ^^^ m)).mag ^^^ m) = x.withMag x.mag := by
  have hmag : ((x.mag ^^^ m) &&& x.mask ^^^ m) &&& x.mask = x.mag &&& x.mask := by
    refine BitVec.eq_of_getLsbD_eq fun k _ => ?_
    simp only [BitVec.getLsbD_and, BitVec.getLsbD_xor]
    cases x.mask.getLsbD k <;> simp
  simp only [Value.withMag, hmag]

/-- REVB in place at a position below the width of what the register holds. -/
theorem exec_revb_inPlace (r : VReg) (a : Imm) (s : State) (x : Value) (hc : s.contents r = some x)
    (ha : a.toNat < x.w.toNat) :
    ∃ t, exec (.revb r r a) s = .next t ∧ WritesV r (x.withMag (x.mag ^^^ shiftLeft 1 a.toNat)) s t := by
  have hleft : s.left r = x := s.readV_written 0 r x hc
  have hexec : exec (.revb r r a) s = execRevb r r a s := rfl
  rw [hexec, execRevb_toggle r r a s (by rwa [hleft]), hleft]
  exact finishV_ok_writesV s r _

/-- Settles O34: the second toggle cancels the first, and a masked value stays as it is under its mask. -/
theorem togglingTwiceGivesTheValueBack : Obligations.TogglingTwiceGivesTheValueBack := by
  intro r a s x hlegal hc hmasked ha
  have hw : x.LegalWidth := s.readV_written 0 r x hc ▸ s.left_width r hlegal
  obtain ⟨t, ht, hfirst⟩ := exec_revb_inPlace r a s x hc ha
  obtain ⟨u, hu, hsecond⟩ := exec_revb_inPlace r a t _ hfirst.1 ha
  have hback : (x.withMag (x.mag ^^^ shiftLeft 1 a.toNat)).withMag
      ((x.withMag (x.mag ^^^ shiftLeft 1 a.toNat)).mag ^^^ shiftLeft 1 a.toNat) = x :=
    (x.withMag_xor_xor _).trans (hmasked.withMag_mag hw)
  rw [hback] at hsecond
  exact ⟨t, u, ht, hu, hfirst.trans hsecond⟩

/-! ## ADD and SUB (R170, R171) -/

theorem add_eq_ofNat (m k : Mag) : m + k = BitVec.ofNat 64 (m.toNat + k.toNat) := by
  rw [BitVec.ofNat_add, ofNat_eq_of_toNat rfl, ofNat_eq_of_toNat rfl]

theorem sub_eq_ofInt (m k : Mag) : m - k = BitVec.ofInt 64 ((m.toNat : Int) - (k.toNat : Int)) := by
  rw [Int.sub_eq_add_neg, BitVec.ofInt_add, BitVec.ofInt_neg, BitVec.ofInt_natCast, BitVec.ofInt_natCast,
    ofNat_eq_of_toNat rfl, ofNat_eq_of_toNat rfl, BitVec.sub_eq_add_neg]

/-- Settles O35: the 64-bit sum and difference are the exact ones reduced, and the mask reduces them modulo 2^w. -/
theorem addAndSubWrapAtTheLeftWidth : Obligations.AddAndSubWrapAtTheLeftWidth := by
  intro rd rs1 rs2 s hlegal
  have hw := s.left_width rs1 hlegal
  rw [← Value.withMag_ofNat _ _ hw, ← Value.withMag_ofInt _ _ hw, ← add_eq_ofNat, ← sub_eq_ofInt]
  exact ⟨encoded (.add rd rs1 rs2), encoded (.sub rd rs1 rs2), finishV_ok_writesV s rd _, finishV_ok_writesV s rd _⟩

/-! ## Comparison (R173 to R180) -/

/-- The three-way comparison is the sign of the exact difference. -/
theorem cmpMag_eq_sign (x y : Mag) : cmpMag x y = Int.sign ((x.toNat : Int) - (y.toNat : Int)) := by
  unfold cmpMag
  split
  · rw [Int.sign_eq_neg_one_of_neg (by omega)]
  · split
    · next h => rw [h, Int.sub_self, Int.sign_zero]
    · next hlt hne =>
      have hne' : x.toNat ≠ y.toNat := fun h => hne (BitVec.eq_of_toNat_eq h)
      rw [Int.sign_eq_one_of_pos (by omega)]

theorem ofInt_cmpMag (x y : Mag) : BitVec.ofInt 64 (cmpMag x y) =
    if x.toNat < y.toNat then 0xFFFFFFFFFFFFFFFF else if x.toNat = y.toNat then 0 else 1 := by
  simp only [cmpMag, apply_ite (BitVec.ofInt 64), BitVec.toNat_inj]
  rfl

/-- Settles O36: the number -1 is all ones in 64 bits. -/
theorem cmpOrdersRawMagnitudes : Obligations.CmpOrdersRawMagnitudes := by
  intro rs1 rs2 s
  rw [← ofInt_cmpMag]
  exact ⟨encoded (.cmp rs1 rs2), finishRes_ok_writesRes s _⟩

/-- A command that returns the truth of a test, said as what the test decides. -/
theorem finishRes_truth_writesRes (s : State) {b : Bool} {p : Prop} [Decidable p] (h : b = true ↔ p) :
    ∃ t, finishRes s (.ok (truth b)) = .next t ∧ WritesRes (if p then 1 else 0) s t := by
  have htruth : truth b = if p then 1 else 0 := by simp only [truth, h]
  rw [htruth]
  exact finishRes_ok_writesRes s _

/-- Settles O37: the sign of the difference stands to 0 as the left magnitude stands to the right one. -/
theorem relationsAgreeWithTheOrder : Obligations.RelationsAgreeWithTheOrder := by
  intro rs1 rs2 s
  refine ⟨⟨encoded (.eq rs1 rs2), encoded (.ne rs1 rs2), encoded (.lt rs1 rs2), encoded (.le rs1 rs2),
    encoded (.gt rs1 rs2), encoded (.ge rs1 rs2)⟩, fun x y hx hy => ?_⟩
  have hsign : s.compare rs1 rs2 = Int.sign ((x : Int) - (y : Int)) := by rw [hx, hy]; exact cmpMag_eq_sign _ _
  refine ⟨finishRes_truth_writesRes s ?eq, finishRes_truth_writesRes s ?ne, finishRes_truth_writesRes s ?lt,
    finishRes_truth_writesRes s ?le, finishRes_truth_writesRes s ?gt, finishRes_truth_writesRes s ?ge⟩
  case eq => rw [beq_iff_eq, hsign, Int.sign_eq_zero_iff_zero]; omega
  case ne => rw [bne_iff_ne, hsign, ne_eq, Int.sign_eq_zero_iff_zero]; omega
  case lt => rw [decide_eq_true_iff, hsign, Int.sign_neg_iff]; omega
  case le => rw [decide_eq_true_iff, hsign, Int.sign_nonpos_iff]; omega
  case gt => rw [decide_eq_true_iff, hsign, gt_iff_lt, Int.sign_pos_iff]; omega
  case ge => rw [decide_eq_true_iff, hsign, ge_iff_le, Int.sign_nonneg_iff]; omega

end Sys2Proof.Machine

/-! SUPPORT. The statements about the radix formatter and parser (spec/43_radix.md): the rendering loops write numerals of
a fixed number of digits, the parsing loop reads a numeral's number, and what FMT, FMTF, PARSE and HEX2DEC do with them. -/

namespace Sys2Proof.Machine

/-! ## Digits and their characters (R12, R214, R221) -/

theorem digitChar_eq_zeroChar_iff (d : Nat) (hd : d < 16) : digitChar d = 0x30 ↔ d = 0 := by
  decide +revert

theorem hexChars_getElem? (d : Nat) (hd : d < 16) : hexChars[d]? = some (digitChar d) := by
  decide +revert

theorem decDigit_digitChar (d : Nat) (hd : d < 10) : decDigit (digitChar d) = some d := by
  decide +revert

theorem hexDigit_digitChar (d : Nat) (hd : d < 16) : hexDigit (digitChar d) = some d := by
  decide +revert

/-- A bit as its character, "0" or "1". -/
theorem digitChar_testBit (n i : Nat) : digitChar (n / 2 ^ i % 2) = if n.testBit i then 0x31 else 0x30 := by
  rw [Nat.testBit_eq_decide_div_mod_eq]
  rcases Nat.mod_two_eq_zero_or_one (n / 2 ^ i) with h | h <;> rw [h] <;> rfl

/-- A hexadecimal digit's character is the upper-case one of the digit, or the lower-case letter. -/
theorem eq_digitChar_or_lowerCase {c : Byte} {d : Nat} (h : hexDigit c = some d) :
    d < 16 ∧ (c = digitChar d ∨ (10 ≤ d ∧ c.toNat = 0x61 + (d - 10))) := by
  unfold hexDigit at h
  split at h
  case isTrue hc =>
    cases h
    refine ⟨by omega, .inl (BitVec.eq_of_toNat_eq ?_)⟩
    rw [digitChar, if_pos (by omega), BitVec.toNat_ofNat]
    omega
  case isFalse =>
    split at h
    case isTrue hc =>
      cases h
      exact ⟨by omega, .inr (by omega)⟩
    case isFalse =>
      split at h
      case isTrue hc =>
        cases h
        refine ⟨by omega, .inl (BitVec.eq_of_toNat_eq ?_)⟩
        rw [digitChar, if_neg (by omega), BitVec.toNat_ofNat]
        omega
      case isFalse => cases h

/-- The parser's ranges and the table of hexadecimal characters agree in the other direction too (R12, R221). -/
theorem hexDigitIs_of_hexDigit {c : Byte} {d : Nat} (h : hexDigit c = some d) : HexDigitIs c d := by
  obtain ⟨hd, hc⟩ := eq_digitChar_or_lowerCase h
  exact ⟨hd, hc.imp_left fun hc => by rw [hc, hexChars_getElem? d hd]⟩

/-- A character with a..f changed to A..F (R224). -/
def upperCase (c : Byte) : Byte := if 0x61 ≤ c.toNat ∧ c.toNat ≤ 0x66 then c - 0x20 else c

theorem upperCase_digitChar (d : Nat) (hd : d < 16) : upperCase (digitChar d) = digitChar d := by
  decide +revert

theorem upperCase_eq_digitChar {c : Byte} {d : Nat} (h : hexDigit c = some d) : upperCase c = digitChar d := by
  obtain ⟨hd, rfl | ⟨h10, hc⟩⟩ := eq_digitChar_or_lowerCase h
  · exact upperCase_digitChar d hd
  · apply BitVec.eq_of_toNat_eq
    have hgap : (0x20 : Byte).toNat = 0x20 := rfl
    rw [upperCase, if_pos (by omega), digitChar, if_neg (by omega), BitVec.toNat_sub, BitVec.toNat_ofNat, hgap]
    omega

/-! ## Numerals: what the rendering loops write (R213, R214) -/

/-- The lowest `len` digits of n in a base, as characters, the highest one first. -/
def numeral (base : Nat) : Nat → Nat → List Byte
  | 0, _ => []
  | len + 1, n => numeral base len (n / base) ++ [digitChar (n % base)]

@[simp] theorem numeral_length (base len n : Nat) : (numeral base len n).length = len := by
  induction len generalizing n with
  | zero => rfl
  | succ len ih => simp [numeral, ih]

theorem numeral_ne_nil {base len : Nat} (n : Nat) (hlen : len ≠ 0) : numeral base len n ≠ [] :=
  List.ne_nil_of_length_pos (by rw [numeral_length]; omega)

/-- Character k is the digit of weight base^(len-1-k). -/
theorem numeral_getElem? (base len n k : Nat) (hk : k < len) :
    (numeral base len n)[k]? = some (digitChar (n / base ^ (len - 1 - k) % base)) := by
  induction len generalizing n with
  | zero => omega
  | succ len ih =>
    rcases Nat.lt_succ_iff_lt_or_eq.mp hk with hlt | rfl
    · have hpow : base * base ^ (len - 1 - k) = base ^ (len + 1 - 1 - k) := by
        rw [← Nat.pow_succ']; congr 1; omega
      rw [numeral, List.getElem?_append_left (by simpa), ih _ hlt, Nat.div_div_eq_div_mul, hpow]
    · simp [numeral]

theorem numeral_zero (base len : Nat) : numeral base len 0 = List.replicate len 0x30 := by
  induction len with
  | zero => rfl
  | succ len ih => rw [numeral, Nat.zero_div, Nat.zero_mod, ih, List.replicate_succ']; rfl

/-- Digits above a number's highest one are zeros, the padding of R214. -/
theorem numeral_padded (base pad len n : Nat) (h : n < base ^ len) :
    numeral base (pad + len) n = List.replicate pad 0x30 ++ numeral base len n := by
  induction len generalizing n with
  | zero =>
    obtain rfl : n = 0 := by simpa using h
    simp [numeral_zero, numeral]
  | succ len ih =>
    have hdiv : n / base < base ^ len := Nat.div_lt_of_lt_mul (by rwa [← Nat.pow_succ'])
    rw [← Nat.add_assoc, numeral, ih _ hdiv, List.append_assoc, numeral]

/-- The rightmost digits are a shorter numeral of the same number (R215). -/
theorem numeral_drop (base k len n : Nat) : (numeral base (k + len) n).drop k = numeral base len n := by
  induction len generalizing n with
  | zero => exact List.drop_eq_nil_of_le (by simp)
  | succ len ih =>
    rw [← Nat.add_assoc, numeral, List.drop_append_of_le_length (by simp), ih, numeral]

/-- The loop of R213 and R214 writes as many digits as the number has; the turns suffice. -/
theorem digitsLoop_eq_numeral {base turns v : Nat} (hbase : 1 < base) (hv : v < base ^ turns) (str : List Byte) :
    digitsLoop base turns v str = numeral base (base.digits v).length v ++ str := by
  induction turns generalizing v str with
  | zero =>
    obtain rfl : v = 0 := by simpa using hv
    simp [digitsLoop, numeral]
  | succ turns ih =>
    by_cases hzero : v = 0
    · subst hzero
      simp [digitsLoop, numeral]
    · have hdiv : v / base < base ^ turns := Nat.div_lt_of_lt_mul (by rwa [← Nat.pow_succ'])
      rw [digitsLoop, if_neg hzero, ih hdiv, Nat.digits_def' hbase (Nat.pos_of_ne_zero hzero), List.length_cons, numeral,
        List.append_assoc, List.singleton_append]

/-- 64 turns suffice for every 64-bit number, in every base (notes/assumptions/15.md). -/
theorem toNat_lt_pow_turns (v : Mag) {base : Nat} (hbase : 1 < base) : v.toNat < base ^ 64 :=
  v.isLt.trans_le (Nat.pow_le_pow_left hbase 64)

/-- dec(v) has no digit more than the number, but for the one "0" of 0 (R213). -/
theorem dec_eq_numeral (v : Mag) :
    ∃ len, len < 64 ∧ v.toNat < 10 ^ (len + 1) ∧ (len ≠ 0 → 10 ^ len ≤ v.toNat) ∧
      dec v = numeral 10 (len + 1) v.toNat := by
  by_cases hzero : v = 0
  · subst hzero
    exact ⟨0, by decide, by decide, nofun, rfl⟩
  · have hne : v.toNat ≠ 0 := fun h => hzero (BitVec.eq_of_toNat_eq h)
    have hturns := toNat_lt_pow_turns v (by decide : 1 < 10)
    obtain ⟨len, hlen⟩ : ∃ len, (Nat.digits 10 v.toNat).length = len + 1 :=
      Nat.exists_eq_succ_of_ne_zero (by simpa [Nat.digits_eq_nil_iff_eq_zero] using hne)
    have hle := (Nat.digits_length_le_iff (by decide) v.toNat).mpr hturns
    refine ⟨len, by omega, ?_, fun _ => ?_, ?_⟩
    · exact (Nat.digits_length_le_iff (by decide) _).mp hlen.le
    · exact (Nat.lt_digits_length_iff (by decide) _).mp (by omega)
    · rw [dec, if_neg hzero, digitsLoop_eq_numeral (by decide) hturns, hlen, List.append_nil]

/-- A number of fw bits needs at most ceil(fw/4) hexadecimal digits (R214). -/
theorem lt_pow_hexLength {n fw : Nat} (hn : n < 2 ^ fw) : n < 16 ^ hexLength fw :=
  calc n < 2 ^ fw := hn
    _ ≤ 2 ^ (4 * hexLength fw) := Nat.pow_le_pow_right (by decide) (by unfold hexLength; omega)
    _ = 16 ^ hexLength fw := Nat.pow_mul 2 4 _

/-- hex(v, fw) is the number in ceil(fw/4) digits (R214). -/
theorem hex_eq_numeral (v : Mag) (fw : Nat) (hv : v.toNat < 2 ^ fw) :
    hex v fw = numeral 16 (hexLength fw) v.toNat := by
  have hlen := (Nat.digits_length_le_iff (by decide) v.toNat).mpr (lt_pow_hexLength hv)
  have hpad := numeral_padded 16 (hexLength fw - (Nat.digits 16 v.toNat).length) _ _
    (Nat.lt_base_pow_length_digits (b := 16) (m := v.toNat) (by decide))
  rw [Nat.sub_add_cancel hlen] at hpad
  rw [hpad, hex, digitsLoop_eq_numeral (by decide) (toNat_lt_pow_turns v (by decide)), List.append_nil, numeral_length]

/-! ## The binary text (R215) -/

/-- A hexadecimal digit's character stands for the four binary digits of its number. -/
theorem nibble_digitChar (d : Nat) (hd : d < 16) : nibble (digitChar d) = numeral 2 4 d := by
  decide +revert

/-- The four binary digits at the right are those of the last hexadecimal digit. -/
theorem numeral_two_add_four (len n : Nat) : numeral 2 (len + 4) n = numeral 2 len (n / 16) ++ numeral 2 4 (n % 16) := by
  have hquot : n / 2 / 2 / 2 / 2 = n / 16 := by omega
  have h0 : n % 16 % 2 = n % 2 := by omega
  have h1 : n % 16 / 2 % 2 = n / 2 % 2 := by omega
  have h2 : n % 16 / 2 / 2 % 2 = n / 2 / 2 % 2 := by omega
  have h3 : n % 16 / 2 / 2 / 2 % 2 = n / 2 / 2 / 2 % 2 := by omega
  simp only [numeral, hquot, h0, h1, h2, h3, List.append_assoc, List.nil_append]

theorem flatMap_nibble_numeral (len n : Nat) : (numeral 16 len n).flatMap nibble = numeral 2 (4 * len) n := by
  induction len generalizing n with
  | zero => rfl
  | succ len ih =>
    have hlast : n % 16 < 16 := Nat.mod_lt n (by decide)
    rw [Nat.mul_succ, numeral_two_add_four, numeral, List.flatMap_append, ih, List.flatMap_singleton,
      nibble_digitChar _ hlast]

theorem bin_eq_numeral (v : Mag) (fw : Nat) (hv : v.toNat < 2 ^ fw) : bin v fw = numeral 2 fw v.toNat := by
  have hlen : 4 * hexLength fw - fw + fw = 4 * hexLength fw := by unfold hexLength; omega
  have hdrop := numeral_drop 2 (4 * hexLength fw - fw) fw v.toNat
  rw [hlen] at hdrop
  rw [bin, hex_eq_numeral v fw hv, flatMap_nibble_numeral, numeral_length, hdrop]

/-! ## The numbers that texts stand for (R220, R221) -/

theorem digitsValue_append (base : Nat) (digit : Byte → Option Nat) (acc : Nat) (t u : List Byte) :
    digitsValue base digit acc (t ++ u) =
      (digitsValue base digit acc t).bind fun acc' => digitsValue base digit acc' u := by
  induction t generalizing acc with
  | nil => rfl
  | cons c t ih =>
    simp only [List.cons_append, digitsValue]
    cases digit c with
    | none => rfl
    | some d => exact ih _

theorem digitsValue_singleton (base : Nat) (digit : Byte → Option Nat) (acc : Nat) (c : Byte) :
    digitsValue base digit acc [c] = (digit c).map (acc * base + ·) := by
  unfold digitsValue
  cases digit c <;> rfl

/-- The parsing loop reads back the digits a numeral has of the number. -/
theorem digitsValue_numeral {base : Nat} {digit : Byte → Option Nat} (hbase : 0 < base)
    (hdigit : ∀ d, d < base → digit (digitChar d) = some d) (acc len n : Nat) :
    digitsValue base digit acc (numeral base len n) = some (acc * base ^ len + n % base ^ len) := by
  induction len generalizing n with
  | zero => simp [numeral, digitsValue, Nat.mod_one]
  | succ len ih =>
    have hmod : n % base ^ (len + 1) = n % base + base * (n / base % base ^ len) := by rw [Nat.pow_succ', Nat.mod_mul]
    rw [numeral, digitsValue_append, ih, Option.bind_some, digitsValue_singleton, hdigit _ (Nat.mod_lt _ hbase), hmod]
    simp only [Option.map_some, Option.some.injEq]
    ring

theorem digitsValue_numeral_of_lt {base : Nat} {digit : Byte → Option Nat} (hbase : 0 < base)
    (hdigit : ∀ d, d < base → digit (digitChar d) = some d) {len n : Nat} (hn : n < base ^ len) :
    digitsValue base digit 0 (numeral base len n) = some n := by
  rw [digitsValue_numeral hbase hdigit, Nat.zero_mul, Nat.zero_add, Nat.mod_eq_of_lt hn]

theorem decDigit_isSome_iff (c : Byte) : (decDigit c).isSome ↔ 0x30 ≤ c.toNat ∧ c.toNat ≤ 0x39 := by
  unfold decDigit
  split <;> simp [*]

/-- A text that has a value consists of digits. -/
theorem isSome_of_digitsValue {base : Nat} {digit : Byte → Option Nat} {acc n : Nat} {t : List Byte}
    (h : digitsValue base digit acc t = some n) : ∀ c ∈ t, (digit c).isSome := by
  induction t generalizing acc with
  | nil => simp
  | cons c t ih =>
    unfold digitsValue at h
    cases hc : digit c with
    | none => rw [hc] at h; cases h
    | some d =>
      rw [hc] at h
      exact List.forall_mem_cons.mpr ⟨by rw [hc]; rfl, ih h⟩

/-- A decimal numeral of n is what the loop of R220 reads as n. -/
theorem readsDecimal_iff (t : List Byte) (n : Nat) :
    ReadsDecimal t n ↔ t ≠ [] ∧ digitsValue 10 decDigit 0 t = some n := by
  refine and_congr_right fun _ => ⟨fun ⟨hdigits, hsum⟩ => ?_, fun h => ?_⟩
  · rw [digitsValue_decimal t 0 hdigits, hsum]
  · have hdigits : ∀ c ∈ t, 0x30 ≤ c.toNat ∧ c.toNat ≤ 0x39 :=
      fun c hc => (decDigit_isSome_iff c).mp (isSome_of_digitsValue h c hc)
    rw [digitsValue_decimal t 0 hdigits] at h
    exact ⟨hdigits, Option.some.inj h⟩

/-- Hexadecimal text that has a value is a list of digits, and so of their numbers. -/
theorem exists_digits_of_digitsValue {acc n : Nat} {t : List Byte} (h : digitsValue 16 hexDigit acc t = some n) :
    ∃ ds, List.Forall₂ HexDigitIs t ds := by
  have hsome := isSome_of_digitsValue h
  clear h
  induction t with
  | nil => exact ⟨[], .nil⟩
  | cons c t ih =>
    obtain ⟨hc, ht⟩ := List.forall_mem_cons.mp hsome
    obtain ⟨d, hd⟩ := Option.isSome_iff_exists.mp hc
    obtain ⟨ds, hds⟩ := ih ht
    exact ⟨d :: ds, .cons (hexDigitIs_of_hexDigit hd) hds⟩

/-- A hexadecimal numeral of n is what the loop of R221 reads as n. -/
theorem readsHex_iff (t : List Byte) (n : Nat) : ReadsHex t n ↔ t ≠ [] ∧ digitsValue 16 hexDigit 0 t = some n := by
  refine and_congr_right fun _ => ⟨fun ⟨ds, hds, hsum⟩ => ?_, fun h => ?_⟩
  · rw [digitsValue_hex t ds 0 hds, hsum]
  · obtain ⟨ds, hds⟩ := exists_digits_of_digitsValue h
    rw [digitsValue_hex t ds 0 hds] at h
    exact ⟨ds, hds, Option.some.inj h⟩

/-! ## The parsers (R220, R221) -/

/-- The parser's answer to a text: the number it reads as, if one below 2^64, else an error of kind e. -/
def Parses (reads : Nat → Prop) (e : ErrorKind) (r : Except ErrorKind Mag) : Prop :=
  (∀ n, reads n → n < 2 ^ 64 → r = .ok (BitVec.ofNat 64 n)) ∧ ((∀ n, reads n → 2 ^ 64 ≤ n) → r = .error e)

theorem parseDigits_parses (base : Nat) (digit : Byte → Option Nat) (e : ErrorKind) (t : List Byte) :
    Parses (fun n => t ≠ [] ∧ digitsValue base digit 0 t = some n) e (parseDigits base digit e t) := by
  refine ⟨fun n ⟨hne, hn⟩ hlt => ?_, fun h => ?_⟩
  · rw [parseDigits, if_neg hne, hn]
    exact if_neg (by omega)
  · unfold parseDigits
    split
    · rfl
    · next hne =>
      cases hv : digitsValue base digit 0 t with
      | none => rfl
      | some n =>
        have hbig := h n ⟨hne, hv⟩
        exact if_pos (by omega)

theorem parseDec_parses (t : List Byte) : Parses (ReadsDecimal t) .invalidArgument (parseDec t) := by
  rw [funext fun n => propext (readsDecimal_iff t n)]
  exact parseDigits_parses 10 decDigit _ t

theorem hex2Dec_parses (t : List Byte) : Parses (ReadsHex t) .unsupported (hex2Dec t) := by
  rw [funext fun n => propext (readsHex_iff t n)]
  exact parseDigits_parses 16 hexDigit _ t

/-! ## The texts of a number (R213 to R215, R217) -/

theorem dec_readsDecimal (v : Mag) : ReadsDecimal (dec v) v.toNat := by
  obtain ⟨len, -, hlt, -, hdec⟩ := dec_eq_numeral v
  rw [hdec, readsDecimal_iff]
  exact ⟨numeral_ne_nil _ (by omega), digitsValue_numeral_of_lt (by decide) decDigit_digitChar hlt⟩

theorem hex_readsHex (v : Mag) (fw : Nat) (hfw : 1 ≤ fw) (hv : v.toNat < 2 ^ fw) : ReadsHex (hex v fw) v.toNat := by
  have hlen : hexLength fw ≠ 0 := by unfold hexLength; omega
  rw [hex_eq_numeral v fw hv, readsHex_iff]
  exact ⟨numeral_ne_nil _ hlen, digitsValue_numeral_of_lt (by decide) hexDigit_digitChar (lt_pow_hexLength hv)⟩

/-- Settles O45: the renderings are numerals of the number. -/
theorem parsingARenderingGivesTheNumber : Obligations.ParsingARenderingGivesTheNumber := by
  intro v
  have hv : BitVec.ofNat 64 v.toNat = v := ofNat_eq_of_toNat rfl
  refine ⟨?_, fun fw hfw _ hlt => ?_⟩
  · rw [(parseDec_parses (dec v)).1 _ (dec_readsDecimal v) v.isLt, hv]
  · rw [(hex2Dec_parses (hex v fw)).1 _ (hex_readsHex v fw hfw hlt) v.isLt, hv]

/-- Only the text of 0 begins with "0". -/
theorem dec_decimalText (v : Mag) : DecimalText (dec v) v.toNat := by
  refine ⟨dec_readsDecimal v, fun hhead => ?_⟩
  obtain ⟨len, -, hlt, hle, hdec⟩ := dec_eq_numeral v
  rw [hdec, List.head?_eq_getElem?, numeral_getElem? _ _ _ _ (Nat.succ_pos len), Option.some.injEq,
    digitChar_eq_zeroChar_iff _ (by omega)] at hhead
  have hfirst : v.toNat / 10 ^ len = 0 := by
    rw [← hhead]
    refine (Nat.mod_eq_of_lt (Nat.div_lt_of_lt_mul ?_)).symm
    rwa [← Nat.pow_succ]
  have hlen : len = 0 := by
    by_contra hne
    exact absurd (hle hne) (Nat.not_le.mpr (Nat.lt_of_div_eq_zero (by positivity) hfirst))
  have hzero : v.toNat = 0 := by simpa [hlen] using hfirst
  rw [hdec, hlen, hzero]
  rfl

theorem hex_hexText (v : Mag) (fw : Nat) (hv : v.toNat < 2 ^ fw) : HexText (hex v fw) v.toNat fw := by
  rw [hex_eq_numeral v fw hv]
  refine ⟨numeral_length .., fun k hk => ?_⟩
  rw [numeral_length] at hk ⊢
  rw [numeral_getElem? _ _ _ _ hk, hexChars_getElem? _ (Nat.mod_lt _ (by decide))]

theorem bin_binText (v : Mag) (fw : Nat) (hv : v.toNat < 2 ^ fw) : BinText (bin v fw) v.toNat fw := by
  rw [bin_eq_numeral v fw hv]
  refine ⟨numeral_length .., fun k hk => ?_⟩
  rw [numeral_getElem? _ _ _ _ hk, digitChar_testBit]

/-- A rendering at a legal width is the text of R217 and fits the buffer. -/
theorem render_textOf (v : Mag) (fw : Nat) (rx : Radix) (h64 : fw ≤ 64) (hv : v.toNat < 2 ^ fw) :
    TextOf (render v fw rx) v.toNat fw rx ∧ (render v fw rx).length ≤ 64 := by
  cases rx with
  | dec =>
    refine ⟨dec_decimalText v, ?_⟩
    obtain ⟨len, hlen, -, -, hdec⟩ := dec_eq_numeral v
    rw [render, hdec, numeral_length]
    omega
  | hex =>
    refine ⟨hex_hexText v fw hv, ?_⟩
    rw [render, (hex_hexText v fw hv).1]
    omega
  | bin =>
    refine ⟨bin_binText v fw hv, ?_⟩
    rwa [render, (bin_binText v fw hv).1]

/-! ## FMT and FMTF (R211, R212, R216) -/

theorem and_mask_toNat (m : Mag) (n : Nat) (h : 1 ≤ n ∧ n ≤ 64) : (m &&& mask n).toNat = m.toNat % 2 ^ n := by
  rw [BitVec.toNat_and, mask_toNat n h.1 h.2, Nat.and_two_pow_sub_one_eq_mod]

/-- A command that delivers the text of a number below 2^fw. -/
theorem finishText_render_writesText (s : State) (v : Mag) (rx : Radix) {n fw : Nat} (h64 : fw ≤ 64)
    (hv : v.toNat = n % 2 ^ fw) :
    ∃ str t, finishText s (.ok (render v fw rx)) = .next t ∧ WritesText str s t ∧ TextOf str (n % 2 ^ fw) fw rx := by
  have hlt : v.toNat < 2 ^ fw := hv ▸ Nat.mod_lt n (Nat.two_pow_pos fw)
  obtain ⟨htext, hlen⟩ := render_textOf v fw rx h64 hlt
  exact ⟨_, _, finishText_ok s _, s.writeText_writesText _ hlen, hv ▸ htext⟩

/-- Settles O38: the value is a remainder, and its rendering a text of that number. -/
theorem fmtDeliversTheText : Obligations.FmtDeliversTheText := by
  intro rs1 rx s hlegal
  have hw := s.left_width rs1 hlegal
  exact ⟨encoded (.fmt rs1 rx), finishText_render_writesText s _ rx hw.2 (and_mask_toNat _ _ hw)⟩

/-- The field's mask at its place, moved down, is the mask of the field's width. -/
theorem bitField_eq_and_mask (m : Mag) (msb lsb : Nat) (hmsb : msb < 64) (hlsb : lsb ≤ msb) :
    bitField m msb lsb = (m >>> lsb) &&& mask (msb - lsb + 1) := by
  refine BitVec.eq_of_getLsbD_eq fun i _ => ?_
  rw [bitField, BitVec.getLsbD_ushiftRight, BitVec.getLsbD_and, BitVec.getLsbD_and, BitVec.getLsbD_ushiftRight,
    fieldmask_getLsbD lsb _ (by omega) (by omega), mask_getLsbD _ (by omega) (by omega)]
  congr 2
  simp

theorem bitField_toNat (m : Mag) (msb lsb : Nat) (hmsb : msb < 64) (hlsb : lsb ≤ msb) :
    (bitField m msb lsb).toNat = m.toNat / 2 ^ lsb % 2 ^ (msb - lsb + 1) := by
  rw [bitField_eq_and_mask m msb lsb hmsb hlsb, and_mask_toNat _ _ (by omega), BitVec.toNat_ushiftRight,
    Nat.shiftRight_eq_div_pow]

theorem execFmtf_of_inside (rs1 : VReg) (rx : Radix) (a b : Imm) (s : State)
    (h : a.toNat < (s.left rs1).w.toNat ∧ b.toNat ≤ a.toNat) :
    execFmtf rs1 rx a b s =
      finishText s (.ok (render (bitField (s.left rs1).mag a.toNat b.toNat) (a.toNat - b.toNat + 1) rx)) := by
  rw [execFmtf, if_neg (by omega), if_neg (by omega)]

theorem execFmtf_of_outside (rs1 : VReg) (rx : Radix) (a b : Imm) (s : State)
    (h : ¬(a.toNat < (s.left rs1).w.toNat ∧ b.toNat ≤ a.toNat)) :
    execFmtf rs1 rx a b s = .next (s.raise .outOfRange) := by
  rw [execFmtf]
  split
  · rfl
  · rw [if_pos (by omega)]
    rfl

/-- Settles O39: the field is a remainder of a quotient, and its rendering a text of that number. -/
theorem fmtfDeliversTheFieldText : Obligations.FmtfDeliversTheFieldText := by
  intro rs1 rx a b s hlegal
  have hw := s.left_width rs1 hlegal
  have hexec : exec (.fmtf rs1 rx a b) s = execFmtf rs1 rx a b s := rfl
  rw [hexec]
  refine ⟨encoded (.fmtf rs1 rx a b), fun h => ?_, fun h => ?_⟩
  · rw [execFmtf_of_inside rs1 rx a b s h]
    exact finishText_render_writesText s _ rx (by omega) (bitField_toNat _ _ _ (by omega) h.2)
  · exact ⟨_, execFmtf_of_outside rs1 rx a b s h, s.raise_fails _⟩

/-- Settles O40: the full range is the value, under the mask of its own width. -/
theorem fullRangeFmtfIsFmt : Obligations.FullRangeFmtfIsFmt := by
  intro rs1 rx a s hlegal ha
  have hw := s.left_width rs1 hlegal
  have hfield : bitField (s.left rs1).mag a.toNat 0 = (s.left rs1).val := by
    rw [bitField_eq_and_mask _ _ _ (by omega) (by omega), BitVec.ushiftRight_zero, Nat.sub_zero, ha]
    rfl
  have hexec : exec (.fmtf rs1 rx a 0) s = execFmtf rs1 rx a 0 s := rfl
  have hzero : (0 : Imm).toNat = 0 := rfl
  rw [hexec, execFmtf_of_inside rs1 rx a 0 s ⟨by omega, Nat.zero_le _⟩, hzero, hfield, Nat.sub_zero, ha]
  rfl

/-! ## PARSE and HEX2DEC (R222, R223) -/

/-- PARSE's radix has a text form, and the width is checked before TLEN (R80, R222). -/
theorem execParse_eq (rd : VReg) {rx : Radix} (hrx : rx ≠ .bin) (a : Imm) (sg : Bool) (s : State) :
    execParse rd rx a sg s = finishV s rd (if badWidth a then .error .outOfRange
      else if s.tlen.toNat > 64 then .error .outOfRange
      else (parseText rx s.text).map fun v => ⟨v, a, sg⟩) := by
  rw [execParse, if_neg hrx]
  cases parseText rx s.text <;> rfl

/-- What PARSE does at a radix that has a text form, said of the parser's answer. -/
theorem execParse_spec (rd : VReg) {rx : Radix} (hrx : rx ≠ .bin) (a : Imm) (sg : Bool) (s : State) {reads : Nat → Prop}
    {e : ErrorKind} (hparse : Parses reads e (parseText rx s.text)) :
    (1 ≤ a.toNat ∧ a.toNat ≤ 64 → s.tlen.toNat ≤ 64 →
      (∀ n, reads n → n < 2 ^ 64 →
        ∃ t, execParse rd rx a sg s = .next t ∧ WritesV rd ⟨BitVec.ofNat 64 n, a, sg⟩ s t) ∧
      ((∀ n, reads n → 2 ^ 64 ≤ n) → ∃ t, execParse rd rx a sg s = .next t ∧ Fails e s t)) ∧
    (¬(1 ≤ a.toNat ∧ a.toNat ≤ 64) ∨ 64 < s.tlen.toNat →
      ∃ t, execParse rd rx a sg s = .next t ∧ Fails .outOfRange s t) := by
  obtain ⟨hgood, hbad⟩ := hparse
  rw [execParse_eq rd hrx a sg s]
  refine ⟨fun ha hlen => ⟨fun n hn hlt => ?_, fun h => ?_⟩, fun h => ?_⟩
  · refine finishV_legalWidth_writesV s rd ha ?_
    rw [if_neg (by omega), hgood n hn hlt]
    rfl
  · refine finishV_legalWidth_fails s rd ha ?_
    rw [if_neg (by omega), hbad h]
    rfl
  · by_cases ha : 1 ≤ a.toNat ∧ a.toNat ≤ 64
    · exact finishV_legalWidth_fails s rd ha (if_pos (h.resolve_left (not_not.mpr ha)))
    · exact finishV_badWidth_fails s rd ha

/-- Settles O41: PARSE in radix 10 stores what the decimal parser answers. -/
theorem parseConstructsFromDecimalText : Obligations.ParseConstructsFromDecimalText := fun rd a sg s =>
  ⟨encoded (.parse rd .dec a sg), execParse_spec rd (by decide) a sg s (parseDec_parses s.text)⟩

/-- Settles O42: PARSE in radix 16 stores what the hexadecimal parser answers. -/
theorem parseConstructsFromHexText : Obligations.ParseConstructsFromHexText := fun rd a sg s =>
  ⟨encoded (.parse rd .hex a sg), execParse_spec rd (by decide) a sg s (hex2Dec_parses s.text)⟩

/-- Settles O43: HEX2DEC returns what the hexadecimal parser answers, after the check of TLEN. -/
theorem hex2decReturnsTheNumber : Obligations.Hex2decReturnsTheNumber := by
  intro s
  obtain ⟨hgood, hbad⟩ := hex2Dec_parses s.text
  have hexec : exec .hex2dec s = execHex2dec s := rfl
  rw [hexec, execHex2dec]
  refine ⟨encoded .hex2dec, by decide, fun hlen => ?_, fun hlen => ?_⟩
  · rw [if_neg (by omega)]
    refine ⟨fun n hn hlt => ?_, fun h => ?_⟩
    · rw [hgood n hn hlt]
      exact finishRes_ok_writesRes s _
    · rw [hbad h]
      exact ⟨_, finishRes_error s _, s.raise_fails _⟩
  · rw [if_pos hlen]
    exact ⟨_, finishRes_error s _, s.raise_fails _⟩

/-! ## The round trip (R224) -/

/-- Hexadecimal text in upper case is the numeral of its number in as many digits. -/
theorem map_upperCase_eq_numeral {t : List Byte} {n : Nat} (h : digitsValue 16 hexDigit 0 t = some n) :
    t.map upperCase = numeral 16 t.length n := by
  induction t using List.reverseRecOn generalizing n with
  | nil => rfl
  | append_singleton t c ih =>
    rw [digitsValue_append, Option.bind_eq_some_iff] at h
    obtain ⟨m, hm, hc⟩ := h
    rw [digitsValue_singleton, Option.map_eq_some_iff] at hc
    obtain ⟨d, hd, rfl⟩ := hc
    have hlt := (eq_digitChar_or_lowerCase hd).1
    have hquot : (m * 16 + d) / 16 = m := by omega
    have hrem : (m * 16 + d) % 16 = d := by omega
    rw [List.map_append, List.length_append, List.length_singleton, numeral, hquot, hrem, ih hm, List.map_singleton,
      upperCase_eq_digitChar hd]

theorem State.text_length (s : State) : s.text.length = s.tlen.toNat := by
  simp [State.text]

theorem State.text_getElem? (s : State) (k : Nat) (hk : k < s.tlen.toNat) : s.text[k]? = some (s.readTxt k) := by
  simp [State.text, hk]

/-- FMT in hexadecimal of a register whose magnitude fits its width. -/
theorem execFmt_hex_of_contents {r : VReg} {s : State} {n : Nat} {a : Imm} {sg : Bool} (ha : 1 ≤ a.toNat ∧ a.toNat ≤ 64)
    (hn : n < 2 ^ a.toNat) (hc : s.contents r = some ⟨BitVec.ofNat 64 n, a, sg⟩) :
    execFmt r .hex s = finishText s (.ok (numeral 16 (hexLength a.toNat) n)) := by
  have hleft : s.left r = ⟨BitVec.ofNat 64 n, a, sg⟩ := s.readV_written 0 r _ hc
  have hmag : (BitVec.ofNat 64 n).toNat = n :=
    Nat.mod_eq_of_lt (hn.trans_le (Nat.pow_le_pow_right (by decide) ha.2))
  have hval : (BitVec.ofNat 64 n &&& mask a.toNat).toNat = n := by
    rw [and_mask_toNat _ _ ha, hmag, Nat.mod_eq_of_lt hn]
  rw [execFmt, hleft, render, Value.val, Value.mask, hex_eq_numeral _ _ (by rwa [hval]), hval]

/-- Settles O44: both the text in upper case and what FMT writes are the numeral of n in ceil(w/4) digits. -/
theorem hexTextRoundTrips : Obligations.HexTextRoundTrips := by
  intro rd a s n ha hlen hreads hn
  have hupper : s.text.map upperCase = numeral 16 (hexLength a.toNat) n := by
    rw [map_upperCase_eq_numeral ((readsHex_iff _ _).mp hreads).2, s.text_length, hlen]
    rfl
  obtain ⟨hlegal, -⟩ := execParse_spec rd (rx := .hex) (by decide) a false s (hex2Dec_parses s.text)
  obtain ⟨t, ht, hwrites⟩ :=
    (hlegal ha (by omega)).1 n hreads (hn.trans_le (Nat.pow_le_pow_right (by decide) ha.2))
  have hfmt := execFmt_hex_of_contents ha hn hwrites.1
  rw [← hupper, finishText_ok] at hfmt
  obtain ⟨⟨htlen, hbytes⟩, -⟩ := t.writeText_writesText (s.text.map upperCase)
    (by rw [List.length_map, s.text_length]; omega)
  rw [List.length_map, s.text_length] at htlen
  refine ⟨t, _, ht, hfmt, BitVec.eq_of_toNat_eq htlen, fun k hk => ?_⟩
  rw [hbytes k (by omega), List.getD_eq_getElem?_getD, List.getElem?_map, s.text_getElem? k hk]
  rfl

end Sys2Proof.Machine

/-! SUPPORT. The statements about errors (spec/60_exceptions.md): every command ends, what it reports in STATUS, what an
error leaves as it was, and that STATUS steers nothing. -/

namespace Sys2Proof.Machine

/-! ## Every command ends (R305, R315) -/

/-- Every arm of `exec` ends through `finish`, which answers a next state whatever the result. -/
theorem exec_next (i : Instr) (s : State) : ∃ t, exec i s = .next t := by
  cases i <;> exact ⟨_, rfl⟩

/-- Settles O46: a word that spells a command runs it, any other raises IllegalCommand. -/
theorem everyWordEndsInANextState : Obligations.EveryWordEndsInANextState := by
  intro w s
  cases hd : decode w with
  | ok i => rw [runCommand_of_decode_ok w i s hd]; exact exec_next i s
  | error e => exact ⟨_, runCommand_of_decode_error w e s hd⟩

/-! ## The two ends of a command (R302, R303) -/

/-- A command completes, from a state whose STICKY only CLRST has changed, or it raises an error. -/
theorem exec_ends {i : Instr} {s t : State} (h : exec i s = .next t) :
    (∃ u : State, u.sticky = (if i = .clrst then false else s.sticky) ∧ t = u.complete) ∨ ∃ e, t = s.raise e := by
  have hne {g : Target} (hi : i.target = g) (hg : g ≠ .none) : i ≠ .clrst := by rintro rfl; exact hg hi.symm
  rcases exec_cases i s t h with ⟨rd, x, hi, rfl⟩ | ⟨x, hi, rfl⟩ | ⟨str, hi, rfl⟩ | ⟨rfl, rfl⟩ | he
  · exact .inl ⟨s.setV rd x, (if_neg (hne hi nofun)).symm, rfl⟩
  · exact .inl ⟨s.setRes x, (if_neg (hne hi nofun)).symm, rfl⟩
  · exact .inl ⟨s.writeText str, (if_neg (hne hi nofun)).symm, rfl⟩
  · exact .inl ⟨s.setStatus (statusWord false 0), (statusWord_sticky _ _).trans (if_pos rfl).symm, rfl⟩
  · exact .inr he

/-- So does every word: one that spells no command raises an error. -/
theorem runCommand_ends {w : Word} {s t : State} (h : runCommand w s = .next t) :
    (∃ u : State, u.sticky = (if decode w = .ok .clrst then false else s.sticky) ∧ t = u.complete) ∨
      ∃ e, t = s.raise e := by
  cases hd : decode w with
  | ok i =>
    rw [runCommand_of_decode_ok w i s hd] at h
    simpa only [Except.ok.injEq] using exec_ends h
  | error e =>
    rw [runCommand_of_decode_error w e s hd] at h
    cases h
    exact .inr ⟨_, rfl⟩

/-- Settles O47: a completed command has CODE 0, and raising an error replaces STATUS alone. -/
theorem errorsArePrecise : Obligations.ErrorsArePrecise := by
  intro w s t h hcode
  rcases runCommand_ends h with ⟨u, -, rfl⟩ | ⟨e, rfl⟩
  · exact absurd u.complete_code hcode
  · rfl

/-- Settles O48: both ends leave a legal STATUS, and completion keeps the STICKY it finds. -/
theorem everyCommandReportsInStatus : Obligations.EveryCommandReportsInStatus := by
  intro w s t h
  rcases runCommand_ends h with ⟨u, hsticky, rfl⟩ | ⟨e, rfl⟩
  · obtain ⟨hreserved, hcode, herror⟩ := u.complete_statusLegal
    exact ⟨hcode, hreserved, herror, fun _ => u.complete_sticky.trans hsticky⟩
  · obtain ⟨hreserved, hcode, herror⟩ := s.raise_statusLegal e
    exact ⟨hcode, hreserved, herror, fun h0 => absurd ((s.raise_code e).symm.trans h0) e.code_ne_zero⟩

/-! ## STATUS steers nothing (R305) -/

/-- Both runs answer, with the same CODE and with states alike but for STATUS. -/
def EndAlike (o o' : Host.Outcome State Fault Refusal) : Prop :=
  ∃ t t', o = .next t ∧ o' = .next t' ∧ t'.code = t.code ∧ t'.setStatus 0 = t.setStatus 0

section Alike

variable (s : State) (x : Word)

/-- Completion reports the same CODE whatever STICKY it keeps. -/
theorem State.complete_endAlike {u u' : State} (h : u'.setStatus 0 = u.setStatus 0) :
    EndAlike (.next u.complete) (.next u'.complete) :=
  ⟨_, _, rfl, rfl, u'.complete_code.trans u.complete_code.symm, h⟩

theorem State.raise_endAlike (e : ErrorKind) : EndAlike (.next (s.raise e)) (.next ((s.setStatus x).raise e)) :=
  ⟨_, _, rfl, rfl, rfl, rfl⟩

/-! The same result ends a command alike. -/

theorem finishV_endAlike (rd : VReg) (r : Except ErrorKind Value) :
    EndAlike (finishV s rd r) (finishV (s.setStatus x) rd r) := by
  cases r with
  | ok y => exact State.complete_endAlike rfl
  | error e => exact s.raise_endAlike x e

theorem finishRes_endAlike (r : Except ErrorKind Mag) : EndAlike (finishRes s r) (finishRes (s.setStatus x) r) := by
  cases r with
  | ok y => exact State.complete_endAlike rfl
  | error e => exact s.raise_endAlike x e

theorem finishText_endAlike (r : Except ErrorKind (List Byte)) :
    EndAlike (finishText s r) (finishText (s.setStatus x) r) := by
  cases r with
  | ok str => exact State.complete_endAlike rfl
  | error e => exact s.raise_endAlike x e

/-- No read of an operand looks at STATUS, so a command computes the same result from both states. -/
theorem exec_endAlike (i : Instr) : EndAlike (exec i s) (exec i (s.setStatus x)) := by
  cases i
  all_goals simp only [exec]
  case ldv | parse | mov | trunc | sat | expand | setw | and | or | xor | not | shl | shr | revb | add | sub =>
    exact finishV_endAlike s x _ _
  case rdmag | rdmagw | rdwid | rdsgn | getb | cmp | eq | ne | lt | le | gt | ge | mask | maskf | hex2dec =>
    exact finishRes_endAlike s x _
  case fmt | fmtf => exact finishText_endAlike s x _
  case clrst => exact State.complete_endAlike rfl

end Alike

/-- Settles O49: the decoder does not see the state, and neither a command nor IllegalCommand looks at STATUS. -/
theorem statusSteersNoCommand : Obligations.StatusSteersNoCommand := by
  intro w s x
  change EndAlike (runCommand w s) (runCommand w (s.setStatus x))
  cases hd : decode w with
  | ok i => simpa only [runCommand_of_decode_ok w i _ hd] using exec_endAlike s x i
  | error e => simpa only [runCommand_of_decode_error w e _ hd] using s.raise_endAlike x .illegalCommand

end Sys2Proof.Machine

/-! SUPPORT. The statements about reset and unwritten state (spec/70_reset_and_hazards.md): the state a reset leaves, the
draw each unwritten read takes, and that what an unwritten register is stored with never matters. -/

namespace Sys2Proof.Machine

/-! ## Two states no read can tell apart (R351, R352) -/

/-- The outcomes cannot be told apart: the same fault, the same refusal, or next states no read can tell apart. -/
inductive SameOutcome : Host.Outcome State Fault Refusal → Host.Outcome State Fault Refusal → Prop where
  | next {t t' : State} (h : SameReads t t') : SameOutcome (.next t) (.next t')
  | fault (f : Fault) : SameOutcome (.fault f) (.fault f)
  | refused (r : Refusal) : SameOutcome (.refused r) (.refused r)

section SameReads

variable {s s' : State}

/-! Such states read alike: what is written is the same in both, and what is not takes the same draw. -/

theorem SameReads.sameButSigns (h : SameReads s s') : SameButSigns s s' := by
  obtain ⟨⟨hv, hres, hdin, htext, hport⟩, hstatus⟩ := h
  exact ⟨fun i => congrArg _ (hv i), hres, hdin, htext, hport, hstatus⟩

theorem SameReads.samePort (h : SameReads s s') : SamePort s s' := by
  obtain ⟨⟨-, -, -, -, hport⟩, -⟩ := h
  exact hport

theorem SameReads.draw (h : SameReads s s') (slot : Nat) : s'.draw slot = s.draw slot := by
  obtain ⟨-, -, -, htick⟩ := h.samePort
  simp only [State.draw, htick]

theorem SameReads.readV (h : SameReads s s') (slot : Nat) (r : VReg) : s'.readV slot r = s.readV slot r := by
  have hdraw := h.draw slot
  obtain ⟨⟨hv, -⟩, -⟩ := h
  simp only [State.readV, hv r, hdraw]

theorem SameReads.left (h : SameReads s s') (r : VReg) : s'.left r = s.left r := h.readV 0 r

theorem SameReads.right (h : SameReads s s') (r : VReg) : s'.right r = s.right r := h.readV 1 r

theorem SameReads.readRes (h : SameReads s s') : s'.readRes = s.readRes := by
  have hdraw := h.draw 3
  obtain ⟨⟨-, hres, -⟩, -⟩ := h
  simp only [State.readRes, hres, hdraw]

theorem SameReads.readTxt (h : SameReads s s') (k : Nat) : s'.readTxt k = s.readTxt k := by
  have hdraw := h.draw (64 + k)
  obtain ⟨⟨-, -, -, ⟨-, htxt⟩, -⟩, -⟩ := h
  simp only [State.readTxt, State.unlistedByte, htxt, hdraw]

theorem SameReads.portRead (h : SameReads s s') (r : PortReg) : portRead r s' = portRead r s := by
  cases r with
  | cmd => rfl
  | status => exact congrArg (·.setWidth 64) h.2
  | din => exact h.sameButSigns.readDin
  | res => exact h.readRes
  | tlen => exact congrArg (·.setWidth 64) h.sameButSigns.tlen
  | txt k => exact congrArg (·.setWidth 64) (h.readTxt k)

/-! The same update of both keeps them such. -/

theorem SameReads.setStatus (h : SameReads s s') (x : Word) : SameReads (s.setStatus x) (s'.setStatus x) :=
  ⟨h.1, rfl⟩

theorem SameReads.complete (h : SameReads s s') : SameReads s.complete s'.complete := by
  have hsticky : s'.sticky = s.sticky := congrArg (·.getLsbD 3) h.2
  simpa only [State.complete, hsticky] using h.setStatus _

theorem SameReads.raise (h : SameReads s s') (e : ErrorKind) : SameReads (s.raise e) (s'.raise e) := h.setStatus _

theorem SameReads.setV (h : SameReads s s') (rd : VReg) (x : Value) : SameReads (s.setV rd x) (s'.setV rd x) := by
  obtain ⟨⟨hv, hrest⟩, hstatus⟩ := h
  refine ⟨⟨fun i => ?_, hrest⟩, hstatus⟩
  by_cases hi : i = rd
  · rw [hi, State.contents_setV_same, State.contents_setV_same]
  · rw [State.contents_setV_other _ _ _ _ hi, State.contents_setV_other _ _ _ _ hi, hv i]

theorem SameReads.setRes (h : SameReads s s') (x : Mag) : SameReads (s.setRes x) (s'.setRes x) := by
  obtain ⟨⟨hv, -, hrest⟩, hstatus⟩ := h
  exact ⟨⟨hv, rfl, hrest⟩, hstatus⟩

theorem SameReads.setDin (h : SameReads s s') (x : Mag) : SameReads (s.setDin x) (s'.setDin x) := by
  obtain ⟨⟨hv, hres, -, hrest⟩, hstatus⟩ := h
  exact ⟨⟨hv, hres, rfl, hrest⟩, hstatus⟩

theorem SameReads.setTlen (h : SameReads s s') (n : Imm) : SameReads (s.setTlen n) (s'.setTlen n) := by
  obtain ⟨⟨hv, hres, hdin, ⟨-, htxt⟩, hport⟩, hstatus⟩ := h
  exact ⟨⟨hv, hres, hdin, ⟨rfl, htxt⟩, hport⟩, hstatus⟩

theorem SameReads.setTxt (h : SameReads s s') (k : Nat) (b : Byte) : SameReads (s.setTxt k b) (s'.setTxt k b) := by
  obtain ⟨⟨hv, hres, hdin, ⟨htlen, htxt⟩, hport⟩, hstatus⟩ := h
  refine ⟨⟨hv, hres, hdin, ⟨htlen, fun j => ?_⟩, hport⟩, hstatus⟩
  simp only [State.setTxt_txt, Memory.read_write, htxt j]

theorem SameReads.writeText (h : SameReads s s') (str : List Byte) :
    SameReads (s.writeText str) (s'.writeText str) := by
  obtain ⟨⟨hv, hres, hdin, -, hport⟩, hstatus⟩ := h
  exact ⟨⟨hv, hres, hdin, ⟨rfl, fun _ => rfl⟩, hport⟩, hstatus⟩

theorem SameReads.reply (h : SameReads s s') (d : BitVec 64) : SameReads (s.reply d) (s'.reply d) := by
  obtain ⟨⟨hv, hres, hdin, htext, ⟨hreset, hin, hreplies, htick⟩⟩, hstatus⟩ := h
  exact ⟨⟨hv, hres, hdin, htext, ⟨hreset, hin, congrArg (d :: ·) hreplies, htick⟩⟩, hstatus⟩

theorem SameReads.advance (h : SameReads s s') (rest : List HostEvent) :
    SameReads (s.advance rest) (s'.advance rest) := by
  obtain ⟨⟨hv, hres, hdin, htext, ⟨hreset, -, hreplies, htick⟩⟩, hstatus⟩ := h
  exact ⟨⟨hv, hres, hdin, htext, ⟨hreset, rfl, hreplies, congrArg (· + 1) htick⟩⟩, hstatus⟩

theorem SameReads.assertReset (h : SameReads s s') :
    SameReads { s with resetAsserted := true } { s' with resetAsserted := true } := by
  obtain ⟨⟨hv, hres, hdin, htext, ⟨-, hport⟩⟩, hstatus⟩ := h
  exact ⟨⟨hv, hres, hdin, htext, ⟨rfl, hport⟩⟩, hstatus⟩

theorem SameReads.released (h : SameReads s s') : SameReads s.released s'.released := by
  obtain ⟨-, hport⟩ := h.samePort
  exact ⟨⟨fun _ => rfl, rfl, rfl, ⟨rfl, fun _ => rfl⟩, ⟨rfl, hport⟩⟩, rfl⟩

/-! A command computes the same result from both and ends alike. -/

theorem SameReads.finishV (h : SameReads s s') {rd : VReg} {r r' : Except ErrorKind Value} (hr : r' = r) :
    SameOutcome (finishV s rd r) (finishV s' rd r') := by
  subst hr
  cases r' with
  | ok x => exact .next (h.setV rd x).complete
  | error e => exact .next (h.raise e)

theorem SameReads.finishRes (h : SameReads s s') {r r' : Except ErrorKind Mag} (hr : r' = r) :
    SameOutcome (finishRes s r) (finishRes s' r') := by
  subst hr
  cases r' with
  | ok x => exact .next (h.setRes x).complete
  | error e => exact .next (h.raise e)

theorem SameReads.finishText (h : SameReads s s') {r r' : Except ErrorKind (List Byte)} (hr : r' = r) :
    SameOutcome (finishText s r) (finishText s' r') := by
  subst hr
  cases r' with
  | ok str => exact .next (h.writeText str).complete
  | error e => exact .next (h.raise e)

/-- The cases are grouped by what the command reads. -/
theorem SameReads.exec (h : SameReads s s') (i : Instr) : SameOutcome (exec i s) (exec i s') := by
  cases i
  all_goals simp only [Machine.exec]
  case ldv => exact h.finishV (by rw [h.sameButSigns.readDin])
  case parse => exact h.finishV (by rw [h.sameButSigns.tlen, h.sameButSigns.text])
  case mov | trunc | sat | expand | setw | not | shl | shr | revb => exact h.finishV (by rw [h.left])
  case and | or | xor | add | sub => exact h.finishV (by rw [h.left, h.right])
  case rdmag | rdmagw | rdwid | rdsgn | getb => exact h.finishRes (by rw [h.left])
  case cmp | eq | ne | lt | le | gt | ge => exact h.finishRes (by rw [h.sameButSigns.compare])
  case mask | maskf => exact h.finishRes rfl
  case hex2dec => exact h.finishRes (by rw [h.sameButSigns.tlen, h.sameButSigns.text])
  case fmt | fmtf => exact h.finishText (by rw [h.left])
  case clrst => exact .next (h.setStatus _).complete

theorem SameReads.runCommand (h : SameReads s s') (w : Word) : SameOutcome (runCommand w s) (runCommand w s') := by
  cases hd : decode w with
  | ok i => simpa only [runCommand_of_decode_ok w i _ hd] using h.exec i
  | error e => simpa only [runCommand_of_decode_error w e _ hd] using .next (h.raise .illegalCommand)

/-! The host's side steers both the same way. -/

theorem SameReads.portWrite (h : SameReads s s') (r : PortReg) (data : BitVec 64) :
    SameOutcome (portWrite r data s) (portWrite r data s') := by
  cases r with
  | cmd => exact h.runCommand _
  | status | res => exact .next h
  | din => exact .next (h.setDin _)
  | tlen => exact .next (h.setTlen _)
  | txt k => exact .next (h.setTxt k _)

/-- The level of the reset input is the same in both, and the checks of offset and size do not look at the state. -/
theorem SameReads.access (h : SameReads s s') (offset bits : Nat)
    {act act' : PortReg → Host.Outcome State Fault Refusal} (hact : ∀ r, SameOutcome (act r) (act' r)) :
    SameOutcome (access offset bits act s) (access offset bits act' s') := by
  obtain ⟨hlevel, -⟩ := h.samePort
  cases hs : s.resetAsserted with
  | true =>
    rw [access_refused _ _ _ _ hs, access_refused _ _ _ _ (hlevel.trans hs)]
    exact .refused _
  | false =>
    have hs' := hlevel.trans hs
    cases hp : portAt offset with
    | none =>
      rw [access_undefined _ _ _ _ hs hp, access_undefined _ _ _ _ hs' hp]
      exact .fault _
    | some r =>
      by_cases hb : bits = r.bits
      · rw [access_served _ _ _ _ r hs hp hb, access_served _ _ _ _ r hs' hp hb]
        exact hact r
      · rw [access_wrongSize _ _ _ _ r hs hp hb, access_wrongSize _ _ _ _ r hs' hp hb]
        exact .fault _

theorem SameReads.resetInput (h : SameReads s s') (asserted : Bool) :
    SameOutcome (resetInput asserted s) (resetInput asserted s') := by
  obtain ⟨hlevel, -⟩ := h.samePort
  refine .next ?_
  rw [hlevel]
  cases asserted with
  | true => exact h.assertReset
  | false =>
    cases s.resetAsserted with
    | true => exact h.released
    | false => exact h

theorem SameReads.serve (h : SameReads s s') (e : HostEvent) : SameOutcome (serve e s) (serve e s') := by
  cases e with
  | read offset bits =>
    refine h.access offset bits fun r => .next ?_
    rw [h.portRead r]
    exact h.reply _
  | write offset bits data => exact h.access offset bits fun r => h.portWrite r data
  | resetInput asserted => exact h.resetInput asserted

theorem SameReads.step (h : SameReads s s') : SameOutcome (step s) (step s') := by
  obtain ⟨-, hin, -⟩ := h.samePort
  cases hs : s.inputs with
  | nil =>
    rw [step_idle s hs, step_idle s' (hin.trans hs)]
    exact .next h
  | cons e rest =>
    rw [step_serves s e rest hs, step_serves s' e rest (hin.trans hs)]
    exact (h.advance rest).serve e

end SameReads

/-- Settles O55: the one event both states serve reads alike and writes alike in both. -/
theorem unwrittenContentsNeverMatter : Obligations.UnwrittenContentsNeverMatter := by
  intro s s' h
  have hstep := h.step
  generalize step s = o at hstep ⊢
  generalize step s' = o' at hstep ⊢
  cases hstep with
  | next ht => exact ⟨fun _ e => by cases e; exact ⟨_, rfl, ht⟩, nofun, nofun⟩
  | fault f => exact ⟨nofun, fun _ e => e, nofun⟩
  | refused r => exact ⟨nofun, nofun, fun _ e => e⟩

/-! ## The state a reset leaves (R35, R350, R351) -/

theorem reset_contents (r : VReg) : State.reset.contents r = none := by
  simp [State.contents, State.reset]

/-- Settles O15: right after reset no mark is set and no byte is listed. -/
theorem resetLeavesTlenAndStatusZero : Obligations.ResetLeavesTlenAndStatusZero :=
  ⟨rfl, rfl, rfl, rfl, reset_contents, rfl, rfl, fun _ => rfl⟩

theorem resetInput_release (s : State) (hs : s.resetAsserted = true) : resetInput false s = .next s.released := by
  simp [resetInput, hs]

/-- Settles O14: the level is looked at before the access, and the released state reads as that of reset. -/
theorem resetInputHoldsAndReleases : Obligations.ResetInputHoldsAndReleases := by
  intro s rest hs
  have refuses {offset bits : Nat}
      (hin : s.inputs = .read offset bits :: rest ∨ ∃ data, s.inputs = .write offset bits data :: rest) :
      step s = .refused .accessDuringReset := by
    obtain ⟨act, hact⟩ := step_access hin
    exact hact.trans (access_refused _ _ _ (s.advance rest) hs)
  refine ⟨fun _ _ hin => refuses (.inl hin), fun _ _ data hin => refuses (.inr ⟨data, hin⟩), fun hin => ?_⟩
  have hstep : step s = .next (s.advance rest).released :=
    (step_serves s _ rest hin).trans (resetInput_release _ hs)
  obtain ⟨htlen, hcode, hsticky, hstatus, hv, hres, hdin, htxt⟩ := resetLeavesTlenAndStatusZero
  exact ⟨_, hstep, rfl, rfl, rfl, hv, hres, hdin, htlen, htxt, hcode, hsticky, hstatus⟩

/-! ## The draw of each unwritten read (R352) -/

theorem draw_injective {s s' : State} {p q : Nat} (hp : p < 128) (hq : q < 128) (h : s.draw p = s'.draw q) :
    s.tick = s'.tick ∧ p = q := by
  unfold State.draw at h
  omega

theorem readDin_unwritten (s : State) (h : s.dinContents = none) : s.readDin = Config.freeWord (s.draw 2) := by
  simp [State.readDin, h]

theorem readRes_unwritten (s : State) (h : s.resContents = none) : s.readRes = Config.freeWord (s.draw 3) := by
  simp [State.readRes, h]

theorem readTxt_unwritten (s : State) (k : Nat) (h : s.txt.read k = none) :
    s.readTxt k = Config.freeByte (s.draw (64 + k)) := by
  simp [State.readTxt, State.unlistedByte, h]

/-! An event is served without counting it; the step counts it. -/

theorem runCommand_tick {w : Word} {s t : State} (h : runCommand w s = .next t) : t.tick = s.tick := by
  cases hd : decode w with
  | ok i =>
    rw [runCommand_of_decode_ok w i s hd] at h
    obtain ⟨-, ⟨-, -, -, htick⟩, -⟩ := commandsWriteOnlyTheirTarget i s t h
    exact htick
  | error e =>
    rw [runCommand_of_decode_error w e s hd] at h
    cases h
    rfl

theorem portWrite_tick {r : PortReg} {data : BitVec 64} {s t : State} (h : portWrite r data s = .next t) :
    t.tick = s.tick := by
  cases r with
  | cmd => exact runCommand_tick h
  | status | din | res | tlen | txt => cases h; rfl

theorem resetInput_tick {asserted : Bool} {s t : State} (h : resetInput asserted s = .next t) : t.tick = s.tick := by
  cases h
  split
  · rfl
  · split <;> rfl

theorem serve_tick {e : HostEvent} {s t : State} (h : serve e s = .next t) : t.tick = s.tick := by
  cases e with
  | read offset bits =>
    obtain ⟨-, r, -, -, hact⟩ := access_cases _ _ _ _ _ h
    cases hact
    rfl
  | write offset bits data =>
    obtain ⟨-, r, -, -, hact⟩ := access_cases _ _ _ _ _ h
    exact portWrite_tick hact
  | resetInput asserted => exact resetInput_tick h

theorem step_tick {s t : State} (hin : s.inputs ≠ []) (h : step s = .next t) : t.tick = s.tick + 1 := by
  obtain ⟨e, rest, hs⟩ := List.exists_cons_of_ne_nil hin
  rw [step_serves s e rest hs] at h
  exact serve_tick h

/-- Settles O56: a draw's number is a step and a slot below 128, and each unwritten read takes the draw of its slot. -/
theorem eachUnwrittenReadHasItsOwnDraw : Obligations.EachUnwrittenReadHasItsOwnDraw :=
  ⟨fun _ _ _ _ => draw_injective, fun s r h => ⟨s.readV_unwritten 0 r h, s.readV_unwritten 1 r h⟩,
    readDin_unwritten, readRes_unwritten, readTxt_unwritten, fun _ _ => step_tick⟩

end Sys2Proof.Machine
